-- ==== Sys2Proof/Word.lean ====
section
/-! DEFINITION. The word types of the part, and nothing else (widths of 0.8 "Conventions" and R1). -/

namespace Sys2Proof

/-- A byte of a structure in memory or of a contribution frame. -/
abbrev Byte := BitVec 8

/-- The data of one beat: 8 bytes, the unit of transfer on both ports (R1). -/
abbrev Word := BitVec 64

/-- A beat address: a 36-bit byte address with its low three bits removed (R1). -/
abbrev BeatAddr := BitVec 33

/-- A 16-bit count, wrapping at its width (0.8 "Counts"). -/
abbrev Count16 := BitVec 16

/-- A 32-bit count, wrapping at its width (0.8 "Counts"). -/
abbrev Count32 := BitVec 32

/-- One bus output sample: 24 bits, two's complement (R90, R98). -/
abbrev Sample := BitVec 24

/-- One of the three contribution lines (0.3). -/
abbrev LineId := Fin 3

end Sys2Proof
end

