-- ==== Sys2Proof/Syntax.lean ====
section
/-! DEFINITION. The commands of the block: one constructor of Instr per row of spec/opcode_table.json,
with the data that crosses the part's ports and pins in that step. -/

namespace Sys2Proof

/-- One write data beat with its eight byte enables, bit k for byte k (R1). -/
structure Beat where
  data : Word
  enables : BitVec 8
  deriving DecidableEq, Repr

/-- Direction, length and data of a request (R1): a read of some beats, or a write of its beats. -/
inductive Burst where
  | read (beats : Nat)
  | write (beats : List Beat)
  deriving DecidableEq, Repr

/-- A fabric request (R1): a fabric tag lies in 0-63. -/
structure Request where
  addr : BeatAddr
  tag : BitVec 6
  burst : Burst
  deriving DecidableEq, Repr

/-- A response (R1), on the memory port or on the fabric port. `ok` is the status OK, its absence
ERROR; `data` holds the beats of a read. The detail of R201 puts memory-port tags in 0-255. -/
structure Response where
  tag : BitVec 8
  ok : Bool
  data : List Word
  deriving DecidableEq, Repr

/-- A symbol of a contribution line (9.2): a space at zero level, or a mark of one polarity. -/
inductive Symbol where
  | space
  | mark (positive : Bool)
  deriving DecidableEq, Repr

/-- The two house references (R42). -/
inductive Ref where
  | video
  | audio
  deriving DecidableEq, Repr

/-- The blocks that take the entry into PASS-ONLY mode as an event of their own (R201). -/
inductive Block where
  | path
  | command
  | report
  | timing
  | mixer
  | label
  | governor
  | line (l : LineId)
  deriving DecidableEq, Repr

/-- A stored value whose parity has gone bad (R10, R92, R126). The manual gives what the part does when
it finds one and nothing that makes one: the command that reads the value carries it (log 5). -/
inductive Upset where
  | window (entry : Fin 16)
  | accumulator (inNext : Bool) (bus : Fin 16) (index : Fin 48)
  | clip (record : Fin 32)
  deriving DecidableEq, Repr

/-- The commands: the part's steps, each whole and indivisible (95 "What each step holds"). A step of a
block that takes something handed to it (a count, a boundary, a command record) reads that from State;
its operands are only what comes from outside the part in that step. -/
inductive Instr where
  /-- R2: a request arrives at the fabric port. -/
  | fabricRequest (request : Request) (upsets : List Upset)
  /-- R17: the memory port accepts a request; `pick` settles which free internal tag a grant takes. -/
  | memoryPortAcceptance (pick : BitVec 5)
  /-- R3, R18: a response arrives at the memory port. -/
  | memoryResponse (response : Response)
  /-- R19: RESET_N, with the value read from CPB0-CPB11. -/
  | reset (cpb : BitVec 12)
  /-- R22: the command unit takes a producer count value handed to it. -/
  | producerCountWrite
  /-- R35: the report unit takes a report consumed count value handed to it. -/
  | reportConsumedCountWrite
  /-- R123: the label unit takes a label consumed count value handed to it. -/
  | labelConsumedCountWrite
  /-- R74: the mixer takes a gain value handed to it. -/
  | gainFieldWrite
  /-- R201: a block takes the entry into PASS-ONLY mode. -/
  | passOnlyEntry (block : Block)
  /-- R23, R24: the response to the command unit's record read. -/
  | recordReadReturn (response : Response)
  /-- R25, R26: the response to the command unit's completion write. -/
  | completionWriteReturn (response : Response)
  /-- R11: APPLY_WINDOWS starts its two table reads. -/
  | applyWindows
  /-- R11: the response to a read of the window table. -/
  | windowTableReadReturn (response : Response)
  /-- R28: APPLY_SETTINGS starts its reads. -/
  | applySettings
  /-- R28: the response to a read of a settings group. -/
  | settingsReadReturn (response : Response)
  /-- R55: the timing unit takes JAM_TIMECODE. -/
  | jamTimecode
  /-- R118: the label unit takes CLIP_MARK. -/
  | clipMark
  /-- R146: the governor takes STREAM_FLUSH. -/
  | streamFlush
  /-- R153: the line unit takes LINE_START. -/
  | lineStart
  /-- R154: the line unit takes LINE_HALT. -/
  | lineHalt
  /-- R155: the line unit takes LINE_CLEAR. -/
  | lineClear
  /-- R172: the line unit takes LINE_RESUME. -/
  | lineResume
  /-- R170: the line unit takes SEND_LIST. -/
  | sendList
  /-- R205: the fault unit takes MEASURE_START. -/
  | measureStart
  /-- R206: the fault unit takes MEASURE_STOP. -/
  | measureStop
  /-- R33: the report unit posts. -/
  | reportPost
  /-- R34: the response to a post write. -/
  | reportPostWriteReturn (response : Response)
  /-- R44, R45: a pulse arrives on VREF or AREF. -/
  | referencePulse (ref : Ref)
  /-- R46: the free-run timer of a reference expires. -/
  | freeRunTimer (ref : Ref)
  /-- R47: the loss timer of a reference expires. -/
  | lossTimer (ref : Ref)
  /-- R58, R59: the sampled level of a mark input has been `high` for `clocks` core clocks on end. -/
  | markEdge (input : Fin 6) (high : Bool) (clocks : Nat)
  /-- R80: the mixer takes an audio boundary. -/
  | mixerAudioBoundary (upsets : List Upset)
  /-- R99: the response to a bus output write. -/
  | busOutWriteReturn (response : Response)
  /-- R110: the label unit takes a video boundary. -/
  | labelVideoBoundary (upsets : List Upset)
  /-- R122: the label unit presents a label write. -/
  | labelPost (upsets : List Upset)
  /-- R122: the response to a label write. -/
  | labelWriteReturn (response : Response)
  /-- R140: the governor takes a video boundary. -/
  | governorVideoBoundary
  /-- R159: a line unit takes an audio boundary. -/
  | lineAudioBoundary (line : LineId)
  /-- R158: the 4,224 symbols of a line's frame have been sent. -/
  | frameEnd (line : LineId)
  /-- R165: the response to a LIVE payload read. -/
  | payloadReadReturn (response : Response)
  /-- R166: the response to a FILE data read. -/
  | fileReadReturn (response : Response)
  /-- R171: the response to a descriptor fetch. -/
  | descriptorFetchReturn (response : Response)
  /-- R187: a line's receiver declares LOS. -/
  | los (line : LineId)
  /-- R186: a line's receiver offers a code violation to the measurement. -/
  | codeViolation (line : LineId)
  /-- R188: a candidate frame in HUNT is judged. -/
  | candidateFrame (line : LineId) (upsets : List Upset)
  /-- R189: a frame taken in LOCKED is judged. -/
  | lockedFrame (line : LineId) (upsets : List Upset)
  /-- R207: the measurement timer takes an audio boundary. -/
  | measurementTimer
  /-- R210: the response to a measurement block write. -/
  | measWriteReturn (response : Response)
  /-- R15: the path unit sends the response of the oldest intercepted read with this tag. -/
  | interceptedReadResponse (tag : BitVec 6)
  /-- R185: the receiver takes one symbol; `level` is what stands on the receive pair. -/
  | symbolReceived (line : LineId) (level : Symbol)
  /-- R181: the coder's symbol clock ticks once. -/
  | symbolSent (line : LineId)
  deriving DecidableEq, Repr

end Sys2Proof
end

