-- ==== Sys2Proof/Config.lean ====
section
/-! DEFINITION. The constants the manual fixes for the part, and the three values it leaves open. -/

namespace Sys2Proof.Config

/-- Places of the forward queue (R2). -/
def forwardPlaces : Nat := 32

/-- The greatest lockout count (R17). -/
def lockoutLimit : Nat := 16

/-- Records of the command ring (R22). -/
def commandSlots : Nat := 16

/-- Core clocks a sampled mark level must differ before the filtered level follows (R58). -/
def markFilterClocks : Nat := 200

/-- Free-run boundaries of the video reference before HOLDOVER_EXPIRED (R46). -/
def videoHoldover : Nat := 250

/-- Free-run boundaries of the audio reference before HOLDOVER_EXPIRED (R46). -/
def audioHoldover : Nat := 10000

/-- Period of the audio reference in core clocks (R43). -/
def audioPeriod : Nat := 200000

/-- Closed frames without a sample after which a source is IDLE (R64, R72). -/
def idleLimit : Nat := 8

/-- Places of a stream's picture queue (R131). -/
def picturePlaces : Nat := 16

/-- Places of a skip-notice queue (R133). -/
def noticePlaces : Nat := 4

/-- Places of the uplink label queue (R124). -/
def uplinkPlaces : Nat := 8

/-- The most payload bytes of one contribution frame (R177). -/
def payloadBytes : Nat := 508

/-- Symbols, and bits, of one contribution frame (R177, R181). -/
def frameBits : Nat := 4224

/-- The sync word of a contribution frame (R177). -/
def syncWord : Nat := 0xB52E

/-- Consecutive spaces at which LOS is declared (R187). -/
def losSpaces : Nat := 96

/-- Bad frames in a row at which LOCKED is left (R189). -/
def badFrameLimit : Nat := 4

/-- FREE VALUE (log 6). When one classification finds parity errors in several enabled entries of the
applied window table, R201 gives the fatal detail as "the entry index" and does not say which: the
choice among them is this constant, which has no body. -/
opaque parityChoice : Nat → Nat

/-- FREE VALUE (log 22). R147 offers a STREAM event with a flush count of 1 when the CODED window of a stream
changes, and gives no latest picture number for it (R146 gives one for STREAM_FLUSH only): the number of the
k-th such event is this constant at k, which has no body. -/
opaque changedWindowPicture : Nat → Count32

/-- FREE VALUE (log 53). R105 gives a last completed slot of 0 to 65,535, and R11 lets a PICTURE window of more than
65,536 pages pass (log 36): what is recorded for a slot of a higher number is this constant at that number, which has
no body. -/
opaque highSlot : Nat → BitVec 16

end Sys2Proof.Config
end

