-- ==== Sys2Proof/Machine/State.lean ====
section
/-! DEFINITION. The state of the part, block by block, as plain data; the reasons a step can stop; and
the state after reset. Each field cites the rule that names it. -/

namespace Sys2Proof.Machine

/-! ## Reasons -/

/-- A step of this part never ends in a fault: everything the manual calls a fault is an effect on State
(R199, R201). -/
inductive Fault where
  deriving DecidableEq, Repr

/-- Why a command has no meaning. -/
inductive Refusal where
  /-- Raised by an arm of exec that has no meaning yet. No arm raises it. Safe. -/
  | notModelled (mnemonic : String)
  /-- Raised by FABRIC_REQUEST when the burst is not 1 to 16 beats long: R1 admits no such request. Safe. -/
  | malformedRequest
  /-- Raised by a response whose data is not as long as R1 says: over 16 beats, or, for an OK response to
  one of the part's own requests, not as long as that request (a write's is empty). Safe. -/
  | malformedResponse
  deriving DecidableEq, Repr

/-! ## The path unit (Chapter 1) -/

/-- The kinds of window (R4). -/
inductive WindowKind where
  | none
  | audioIn
  | picture
  | coded
  | busOut
  | label
  | report
  | meas
  deriving DecidableEq, Repr

/-- A window entry as the table holds it (R4; positions in 11.2). -/
structure WindowEntry where
  base : BitVec 64
  size : BitVec 32
  kind : BitVec 8
  object : BitVec 8
  perFrame : BitVec 16
  deriving DecidableEq, Repr

/-- One record of the tag map (R3), with the address of the forwarded request, which R2 gives as the
failing address of an ERROR response. -/
structure TagRecord where
  forwarded : Nat
  intercepted : Nat
  address : BeatAddr
  deriving DecidableEq, Repr

/-- An intercepted read that waits for its answer, with the beats of its snapshot (R15). -/
structure Intercepted where
  tag : BitVec 6
  beats : List Word
  deriving DecidableEq, Repr

/-- A request of the part's own on the memory port (R16). -/
structure MemRequest where
  addr : BeatAddr
  burst : Burst
  deriving DecidableEq, Repr

/-- The completion codes (0.5). -/
inductive Completion where
  | accepted
  | statusWaiting
  | conflict
  | notOperational
  | invalid
  deriving DecidableEq, Repr

/-- What an internal request is for, so that its response finds its rule. A job number names one piece
read by a line (R165, R166), a fetch number one descriptor fetch (R171), a serial one interval end (R210). -/
inductive Purpose where
  | recordRead
  | completionWrite (again : Bool)
  | tableRead (index : Nat)
  | settingsRead (index : Nat)
  | reportPost (again : Bool)
  | busWrite (frame : Count32) (index : Fin 32)
  | labelWrite (again : Bool)
  | payloadRead (line : LineId) (job : Nat) (index : Nat)
  | fileRead (line : LineId) (job : Nat) (index : Nat)
  | descriptorFetch (line : LineId) (fetch : Nat)
  | measWrite (serial : Nat) (line : LineId) (again : Bool)
  deriving DecidableEq, Repr

/-- A request made and not yet presented (R16). A bus output write or a measurement block write takes its
address and data when it is presented (R98, R210); every other request is fixed when it is made. -/
structure Made where
  purpose : Purpose
  fixed : Option MemRequest
  deriving DecidableEq, Repr

/-- A requester's waiting request: presented, not yet granted. `ahead` counts the forwarded requests that
were in the forward queue at its presentation and are not yet granted (R16). `stale` marks a label write whose
window has changed while it waits (R125, log 35). -/
structure Waiting where
  purpose : Purpose
  request : MemRequest
  ahead : Nat
  stale : Bool
  deriving DecidableEq, Repr

/-- One internal requester: its waiting request and, in order, those made after it (R16). -/
structure RequestQueue where
  waiting : Option Waiting
  later : List Made
  deriving DecidableEq, Repr

/-- A granted internal request, held by its tag until its response arrives (R18). `stale` marks a write of
an old window, whose response counts as a cancellation (R34, R125). -/
structure Issued where
  purpose : Purpose
  request : MemRequest
  stale : Bool
  deriving DecidableEq, Repr

/-- A request as it went out on the memory port, with its tag (R2, R18). -/
structure Transfer where
  tag : BitVec 8
  request : MemRequest
  deriving DecidableEq, Repr

/-- The path unit (R1-R19). -/
structure Path where
  cpb : BitVec 12
  windows : Vector WindowEntry 16
  parityBad : Vector Bool 16
  forward : List Request
  tags : Vector TagRecord 64
  queues : Vector RequestQueue 8
  pool : Vector (Option Issued) 32
  lockout : Nat
  turn : Fin 8
  intercepted : List Intercepted
  fabricOut : Option Response
  memoryOut : Option Transfer
  stopped : Bool
  deriving DecidableEq, Repr

/-! ## The timing unit (Chapter 3) -/

/-- A timecode (R53). -/
structure Timecode where
  hh : Nat
  mm : Nat
  ss : Nat
  ff : Nat
  deriving DecidableEq, Repr

/-- The states of a reference (R42). -/
inductive RefState where
  | absent
  | locked
  | freeRun
  | holdoverExpired
  deriving DecidableEq, Repr

/-- The video rates (3.4). -/
inductive VideoRate where
  | r25
  | r30
  | r50
  | r60
  | r30df
  | r60df
  deriving DecidableEq, Repr

/-- One reference: its state, elapsed count, free-run count and glitch count (R42). -/
structure Reference where
  state : RefState
  elapsed : Nat
  freeRun : Nat
  glitches : Nat
  deriving DecidableEq, Repr

/-- The functions of a mark (R103). -/
inductive MarkFunction where
  | none
  | markIn
  | markOut
  | toggle
  | good
  | split
  deriving DecidableEq, Repr

/-- The edge selections of a mark input (R58, R103). -/
inductive EdgeSelection where
  | off
  | rising
  | falling
  | both
  deriving DecidableEq, Repr

/-- The contents of a FULL capture slot (R59); `mark` is the function and camera that slot 6 holds. -/
structure Capture where
  audioCount : Count32
  overwritten : Bool
  mark : Option (MarkFunction × Fin 8)
  deriving DecidableEq, Repr

/-- What made a boundary (R50). -/
inductive BoundaryCause where
  | pulse
  | timer
  deriving DecidableEq, Repr

/-- A video boundary as handed to a consumer, with the values its own reaction left (R50, R52). -/
structure VideoBoundary where
  state : RefState
  cause : BoundaryCause
  timecode : Timecode
  count : Count32
  deriving DecidableEq, Repr

/-- An audio boundary as handed to a consumer, with the counter its own reaction left (R50, R51). -/
structure AudioBoundary where
  state : RefState
  cause : BoundaryCause
  count : Count32
  deriving DecidableEq, Repr

/-- The timing unit (R42-R63). -/
structure Timing where
  video : Reference
  audio : Reference
  rate : VideoRate
  stagedRate : Option VideoRate
  timecode : Timecode
  videoCount : Count32
  audioCount : Count32
  jam : Option Timecode
  filtered : Vector Bool 6
  selections : Vector EdgeSelection 6
  slots : Vector (Option Capture) 7
  stopped : Bool
  deriving DecidableEq, Repr

/-! ## The command unit (Chapter 2) -/

/-- The states of the command unit (R23). -/
inductive CommandState where
  | idle
  | fetching
  | executing
  | completing
  deriving DecidableEq, Repr

/-- A command handed to its owner, with the object and parameter its row of R24 names. -/
inductive Handed where
  | applyWindows
  | applySettings (group : Fin 10)
  | jamTimecode (p1 : BitVec 64)
  | clipMark (camera : Fin 8) (p1 : BitVec 64)
  | streamFlush (stream : Fin 4)
  | lineStart (line : LineId)
  | lineHalt (line : LineId)
  | lineClear (line : LineId)
  | lineResume (line : LineId)
  | sendList (line : LineId) (p1 : BitVec 64)
  | measureStart (p1 : BitVec 64)
  | measureStop
  deriving DecidableEq, Repr

/-- The further reads of a command in execution (R11, R28): which group (none for the window table), how
many reads, what has returned by read index, and whether one returned ERROR. -/
structure Gather where
  group : Option (Fin 10)
  total : Nat
  returned : List (Nat × List Word)
  failed : Bool
  deriving DecidableEq, Repr

/-- The command unit (R22-R27). `inbox` holds producer counts handed to it and not yet taken. -/
structure Command where
  state : CommandState
  producer : Count16
  consumer : Count16
  executing : Count16
  handed : Option Handed
  gather : Option Gather
  inbox : List Count16
  stopped : Bool
  deriving DecidableEq, Repr

/-! ## The report unit (Chapter 2) -/

/-- A failing address: a byte address, or the location of an INTERNAL_PARITY fault (R200, R215). -/
inductive FailAddress where
  | address (a : BitVec 36)
  | location (unit : BitVec 8) (index : BitVec 8)
  deriving DecidableEq, Repr

/-- The outcomes of a line function (R153-R155). -/
inductive LineOutcome where
  | started
  | halted
  | cleared
  deriving DecidableEq, Repr

/-- The outcomes of a send list (R171, R173, R174). -/
inductive ListOutcome where
  | held
  | done
  | error
  deriving DecidableEq, Repr

/-- The sync states of a receiver (R185). -/
inductive SyncState where
  | hunt
  | locked
  deriving DecidableEq, Repr

/-- The detail of an event or record, one constructor per kind of section 2.5. Counts that merge by a
saturating sum are numbers. -/
inductive Detail where
  | lineFunction (outcome : LineOutcome)
  | lineSignal (los : Bool) (sync : SyncState)
  | sendList (outcome : ListOutcome) (address : Nat)
  | stream (drops corrupt flushes : Nat) (picture : Count32)
  | audioUnderrun (sources : BitVec 64)
  | busSaturation (buses : BitVec 16) (samples : Nat)
  | reference (state : RefState)
  | markOverwrite (slots : BitVec 7)
  | clipRefused (cameras : BitVec 8) (refusals : Nat)
  | fault (address : FailAddress) (faults : Nat)
  | measure (interval : Count32)
  deriving DecidableEq, Repr

/-- A report record (R30); its kind is that of its detail. -/
structure Record where
  object : Nat
  repeats : Nat
  timecode : Timecode
  audioCount : Count32
  detail : Detail
  deriving DecidableEq, Repr

/-- The post buffer's record (R33). `presented` is clear after a cancellation, until it is presented
again (R34). -/
structure PostBuffer where
  record : Record
  presented : Bool
  deriving DecidableEq, Repr

/-- The report unit (R30-R37). `inbox` holds consumed counts handed to it and not yet taken. -/
structure Report where
  queue : List Record
  post : Option PostBuffer
  written : Count16
  consumed : Count16
  slot : Nat
  inbox : List Count16
  stopped : Bool
  deriving DecidableEq, Repr

/-! ## The mixer (Chapters 4 and 5) -/

/-- A source record (R64) less its arrival sets, which stand in the open frames. -/
structure Source where
  active : Bool
  late : Count16
  rewrites : Count16
  outOfWindow : Count16
  idleRun : Nat
  deriving DecidableEq, Repr

/-- A route as the route set holds it: its record's index, bus, source and invert flag (R75). -/
structure RouteRecord where
  index : Fin 256
  bus : Fin 16
  source : Fin 64
  invert : Bool
  deriving DecidableEq, Repr

/-- A route of an open frame, with the gains it latched (R77, R78). -/
structure Route where
  record : RouteRecord
  g0 : BitVec 16
  g1 : BitVec 16
  deriving DecidableEq, Repr

/-- An accumulator, a 48-bit signed value (R89), and whether its parity is bad (R92). -/
structure Accumulator where
  value : BitVec 48
  parityBad : Bool
  deriving DecidableEq, Repr

/-- An open frame (R65): accumulator rows with their bad marks (R92), arrival sets and route set. -/
structure MixFrame where
  rows : Vector (Vector Accumulator 48) 16
  rowBad : Vector Bool 16
  arrivals : Vector (BitVec 48) 64
  routes : List Route
  deriving DecidableEq, Repr

/-- The 48 output samples of each of the 16 buses of a closed frame (R90). -/
abbrev BusFrame := Vector (Vector Sample 48) 16

/-- An entry of the bus output queue (R97): how many writes it is to make (32 unless R100 dropped some),
how many have been presented, and how many have completed. -/
structure BusEntry where
  frame : Count32
  samples : BusFrame
  total : Nat
  presented : Nat
  completed : Nat
  deriving DecidableEq, Repr

/-- A held frame of the closed-frame store (R95). -/
structure HeldFrame where
  frame : Count32
  samples : Vector Sample 48
  deriving DecidableEq, Repr

/-- The mixer (R64-R102). `gains` and `boundaries` hold gain values and audio boundaries handed to it and
not yet taken. -/
structure Mixer where
  sources : Vector Source 64
  frame : Count32
  current : MixFrame
  next : MixFrame
  applied : List RouteRecord
  staged : Option (List RouteRecord)
  targets : Vector (BitVec 16) 256
  meters : Vector Nat 16
  busQueue : List BusEntry
  held : Vector HeldFrame 16
  gains : List (Fin 256 × BitVec 16)
  boundaries : List AudioBoundary
  stopped : Bool
  deriving DecidableEq, Repr

/-! ## The label unit (Chapter 6) -/

/-- What a closed clip record holds besides an open one (R107, R109). -/
structure Closing where
  timecode : Timecode
  videoCount : Count32
  audioCount : Count32
  hold : Nat
  ringDone : Bool
  uplinkDone : Bool
  deriving DecidableEq, Repr

/-- A clip record that is not FREE (R107): OPEN while `closing` is absent, CLOSED while it is present. The
count of dropped pictures is kept from the opening whether or not the picture fields are present. -/
structure Clip where
  id : Count16
  camera : Fin 8
  inTimecode : Timecode
  inVideo : Count32
  inAudio : Count32
  closing : Option Closing
  recorded : Count32
  dropped : Count32
  good : Bool
  unlocked : Bool
  overwritten : Bool
  peak : Option Nat
  pictures : Option (Count32 × Count32)
  pictureDrops : Count32
  splitFrom : Option Count16
  parityBad : Bool
  deriving DecidableEq, Repr

/-- The frame state of a camera (R105). -/
structure CameraState where
  completions : Count32
  completed : Bool
  lastSlot : BitVec 16
  deriving DecidableEq, Repr

/-- What the LABELS group says of one mark input (R103). -/
structure InputSettings where
  function : MarkFunction
  camera : Fin 8
  edge : EdgeSelection
  deriving DecidableEq, Repr

/-- The LABELS settings (R103). -/
structure LabelSettings where
  inputs : Vector InputSettings 6
  buses : Vector (Option (Fin 16)) 8
  goodHold : Nat
  deriving DecidableEq, Repr

/-- The label unit (R103-R128). `inFlight` is the record whose label write is in flight, or `some none`
when that record was lost to a parity error (R126). -/
structure Label where
  clips : Vector (Option Clip) 32
  order : List (Fin 32)
  nextId : Count16
  cameras : Vector CameraState 8
  stray : Count16
  periodTimecode : Timecode
  periodVideo : Count32
  applied : LabelSettings
  staged : Option LabelSettings
  written : Count16
  consumed : Count16
  slot : Nat
  inFlight : Option (Option (Fin 32))
  uplink : List (List Byte)
  inbox : List Count16
  boundaries : List VideoBoundary
  stopped : Bool
  deriving DecidableEq, Repr

/-! ## The stream governor (Chapter 7) -/

/-- The applied settings of a stream (R143). -/
structure StreamSettings where
  camera : Option (Fin 8)
  capacity : Nat
  target : Nat
  base : Nat
  step : Nat
  deriving DecidableEq, Repr

/-- The states of a picture queue entry (R134). -/
inductive PictureState where
  | queued
  | sending
  | corrupt
  deriving DecidableEq, Repr

/-- An entry of a picture queue (R131). -/
structure Picture where
  number : Count32
  start : Nat
  length : Nat
  key : Bool
  timecode : Timecode
  unsent : Nat
  state : PictureState
  deriving DecidableEq, Repr

/-- A SKIP notice (R133). -/
structure Notice where
  first : Count32
  last : Count32
  isPartial : Bool
  deriving DecidableEq, Repr

/-- A claim the governor holds (R135). -/
structure Claim where
  picture : Count32
  length : Nat
  isVoid : Bool
  deriving DecidableEq, Repr

/-- A stream record. A staged copy is `some none` when it disables the stream (R143, R144). -/
structure Stream where
  applied : Option StreamSettings
  staged : Option (Option StreamSettings)
  fill : Nat
  hint : Nat
  keyRequest : Bool
  pictures : List Picture
  notices : List Notice
  claim : Option Claim
  counter : Count32
  lastAdmitted : Count32
  deriving DecidableEq, Repr

/-- The stream governor (R129-R150). `boundaries` holds video boundaries handed to it and not yet taken, and
`changes`, the model's own, counts the events of R147, for the free value each of them carries (log 22). -/
structure Governor where
  streams : Vector Stream 4
  boundaries : List VideoBoundary
  changes : Nat
  stopped : Bool
  deriving DecidableEq, Repr

/-! ## The line units (Chapters 8 and 9) -/

/-- The rate classes (8.1). -/
inductive RateClass where
  | off
  | a
  | b
  | c
  deriving DecidableEq, Repr

/-- The zero-run codes (R151). -/
inductive ZeroRun where
  | off
  | z3
  | z4
  deriving DecidableEq, Repr

/-- The loopbacks (R151). -/
inductive Loopback where
  | none
  | localLoop
  | remote
  deriving DecidableEq, Repr

/-- The LINE settings (R151). -/
structure LineSettings where
  rate : RateClass
  code : ZeroRun
  loopback : Loopback
  buses : List (Fin 16)
  liveStream : Option (Fin 4)
  carriesLabels : Bool
  returnEnabled : Bool
  deriving DecidableEq, Repr

/-- The function states of a line (8.2). -/
inductive FunctionState where
  | idle
  | active
  | halting
  | halted
  deriving DecidableEq, Repr

/-- The kinds of frame a line sends (R177). -/
inductive FrameKind where
  | fill
  | audio
  | live
  | skip
  | label
  | file
  deriving DecidableEq, Repr

/-- The payload of a frame in the next-frame buffer (R160): ready with its bytes, waiting for the reads of
a job, or failed. -/
inductive Payload where
  | ready (bytes : List Byte)
  | waiting (job : Nat)
  | failed
  deriving DecidableEq, Repr

/-- A frame as decided for the next-frame buffer, with the header fields its kind gives (R161, R178). -/
structure Decided where
  kind : FrameKind
  tag : Nat
  position : Count32
  isPartial : Bool
  key : Bool
  last : Bool
  payload : Payload
  deriving DecidableEq, Repr

/-- The frame in transmission: its kind and last flag, its 528 bytes, and how many of its bits the coder
has taken (R158, R178). -/
structure TxFrame where
  kind : FrameKind
  last : Bool
  bytes : List Byte
  sent : Nat
  deriving DecidableEq, Repr

/-- The reads of one piece (R165, R166). `stream` is the stream of a LIVE piece and absent for a FILE
piece; `serial` names the send list a FILE piece was reserved from; `lead` counts the bytes of the first
beat that lie outside the piece. -/
structure ReadJob where
  id : Nat
  stream : Option (Fin 4)
  serial : Nat
  lead : Nat
  length : Nat
  total : Nat
  returned : List (Nat × List Word)
  failed : Bool
  discarded : Bool
  deriving DecidableEq, Repr

/-- The send-list states (R169). -/
inductive ListState where
  | none
  | running
  | held
  deriving DecidableEq, Repr

/-- A loaded descriptor (R169). -/
structure Descriptor where
  address : Nat
  length : Nat
  hold : Bool
  last : Bool
  chain : Bool
  next : Nat
  tag : BitVec 16
  deriving DecidableEq, Repr

/-- The send list record of a line (R169). `fetching` is the number of the fetch in flight, and `serial`
counts the lists attached, so that a piece knows the list it came from (R174). -/
structure SendList where
  state : ListState
  current : Nat
  loaded : Option Descriptor
  reserved : Nat
  fetching : Option Nat
  ending : Bool
  resumePending : Bool
  serial : Nat
  deriving DecidableEq, Repr

/-- A line's coder (R182): last mark's polarity, parity, pending count, and the symbols that wait out the
delay of Z symbol times. -/
structure Coder where
  lastPositive : Bool
  odd : Bool
  pending : Nat
  out : List Symbol
  deriving DecidableEq, Repr

/-- A symbol received and not yet decided, with the bit it decodes to so far (R186). -/
structure Undecided where
  symbol : Symbol
  bit : Bool
  deriving DecidableEq, Repr

/-- A line's receiver (R185). `bits` are the decided bits from the start of the frame being taken, or the
last of them while the search runs; `losDue` and `violationsDue` are a declaration and code violations
whose own steps are still to come. `recent` keeps the last symbols decided, which a change of the zero-run code
can bring back among the Z − 1 symbols before a violation (log 41). -/
structure Receiver where
  lastPositive : Bool
  recent : List Undecided
  undecided : List Undecided
  spaces : Nat
  los : Bool
  sync : SyncState
  heldGood : Bool
  badFrames : Nat
  ignored : Count16
  inFrame : Bool
  bits : List Bool
  losDue : Bool
  violationsDue : Nat
  deriving DecidableEq, Repr

/-- A line unit (R151-R198). `holdBefore` says that the output before a pending start is the hold signal
(R156); `retransmit` holds decided bits for the coder under REMOTE (R195), `looped` symbols sent for the
receiver under LOCAL (R194); `level` is what stands on the transmit pair; `boundaries` holds audio
boundaries handed to the line and not yet taken. -/
structure Line where
  applied : LineSettings
  staged : Option LineSettings
  function : FunctionState
  startPending : Bool
  holdBefore : Bool
  audioDue : Bool
  newPeriod : Bool
  labelSent : Bool
  periodUnlocked : Bool
  sequence : Count16
  tx : Option TxFrame
  next : Option Decided
  list : SendList
  jobs : List ReadJob
  nextJob : Nat
  coder : Coder
  receiver : Receiver
  retransmit : List Bool
  looped : List Symbol
  level : Symbol
  boundaries : List AudioBoundary
  stopped : Bool
  deriving DecidableEq, Repr

/-! ## The fault unit (Chapter 10) -/

/-- The mode (R201). -/
inductive Mode where
  | normal
  | passOnly
  deriving DecidableEq, Repr

/-- The fatal causes with their details (R201). -/
inductive FatalCause where
  | tagInUse (tag : BitVec 6)
  | unknownTag (tag : BitVec 8)
  | windowParity (entry : Nat)
  deriving DecidableEq, Repr

/-- The nonfatal classes (R199). -/
inductive FaultClass where
  | burstSpan
  | memoryError
  | ownedWrite
  | cmdOverrun
  | badMarker
  | outputLate
  | partialControlWrite
  | internalParity
  deriving DecidableEq, Repr

/-- What the fault unit keeps for a class (R199). -/
structure ClassRecord where
  latest : FailAddress
  count : Count16
  deriving DecidableEq, Repr

/-- The measurement states (R204). -/
inductive MeasurementState where
  | inactive
  | starting
  | active
  deriving DecidableEq, Repr

/-- The totals of one line (R204). -/
structure Totals where
  fill : Count32
  audio : Count32
  live : Count32
  skip : Count32
  label : Count32
  file : Count32
  underruns : Count32
  violations : Count32
  crcErrors : Count32
  losFrames : Count32
  goodFrames : Count32
  deriving DecidableEq, Repr

/-- A block of the measurement buffer (R209); its line number is its place. -/
structure MeasBlock where
  totals : Totals
  interval : Count32
  length : Nat
  audioCount : Count32
  deriving DecidableEq, Repr

/-- The block writes of one interval end that have not all completed (R210): how many are open, whether
one has been presented, and the interval number of the block last presented. -/
structure IntervalWrites where
  serial : Nat
  opened : Nat
  begun : Bool
  number : Count32
  deriving DecidableEq, Repr

/-- The fault unit (R199-R213). `los` is the LOS state taken from each receiver; `boundaries` holds audio
boundaries handed to the measurement timer and not yet taken. -/
structure FaultUnit where
  mode : Mode
  cause : Option FatalCause
  further : Nat
  classes : Vector ClassRecord 8
  state : MeasurementState
  interval : Nat
  stagedInterval : Option Nat
  frames : Nat
  number : Count32
  totals : Vector Totals 3
  buffer : Vector MeasBlock 3
  writes : List IntervalWrites
  nextSerial : Nat
  los : Vector Bool 3
  boundaries : List AudioBoundary
  deriving DecidableEq, Repr

/-! ## The part -/

/-- The state of the part, and the commands that wait for it, first in, first out. -/
structure State where
  path : Path
  command : Command
  report : Report
  timing : Timing
  mixer : Mixer
  label : Label
  governor : Governor
  lines : Vector Line 3
  fault : FaultUnit
  pending : List Instr
  deriving DecidableEq, Repr

/-! ## Reset -/

/-- A disabled window entry: kind NONE and size 0 (R19). -/
def WindowEntry.disabled : WindowEntry :=
  { base := 0, size := 0, kind := 0, object := 0, perFrame := 0 }

/-- No request made and none waiting. -/
def RequestQueue.empty : RequestQueue := { waiting := none, later := [] }

/-- The path unit after reset (R19); the straps read 0 (log 1). -/
def Path.reset : Path :=
  { cpb := 0
    windows := Vector.replicate 16 WindowEntry.disabled
    parityBad := Vector.replicate 16 false
    forward := []
    tags := Vector.replicate 64 { forwarded := 0, intercepted := 0, address := 0 }
    queues := Vector.replicate 8 RequestQueue.empty
    pool := Vector.replicate 32 none
    lockout := 0
    turn := 0
    intercepted := []
    fabricOut := none
    memoryOut := none
    stopped := false }

/-- The command unit after reset (R39). -/
def Command.reset : Command :=
  { state := .idle, producer := 0, consumer := 0, executing := 0, handed := none, gather := none,
    inbox := [], stopped := false }

/-- The report unit after reset (R40). -/
def Report.reset : Report :=
  { queue := [], post := none, written := 0, consumed := 0, slot := 0, inbox := [], stopped := false }

/-- The timecode 00:00:00:00. -/
def Timecode.zero : Timecode := { hh := 0, mm := 0, ss := 0, ff := 0 }

/-- A reference after reset (R63). -/
def Reference.reset : Reference := { state := .absent, elapsed := 0, freeRun := 0, glitches := 0 }

/-- The timing unit after reset (R63). -/
def Timing.reset : Timing :=
  { video := Reference.reset
    audio := Reference.reset
    rate := .r25
    stagedRate := none
    timecode := Timecode.zero
    videoCount := 0
    audioCount := 0
    jam := none
    filtered := Vector.replicate 6 false
    selections := Vector.replicate 6 .off
    slots := Vector.replicate 7 none
    stopped := false }

/-- A source after reset (R86). -/
def Source.reset : Source := { active := false, late := 0, rewrites := 0, outOfWindow := 0, idleRun := 8 }

/-- A cleared accumulator. -/
def Accumulator.zero : Accumulator := { value := 0, parityBad := false }

/-- An open frame with nothing accumulated and no routes (R86). -/
def MixFrame.empty : MixFrame :=
  { rows := Vector.replicate 16 (Vector.replicate 48 Accumulator.zero)
    rowBad := Vector.replicate 16 false
    arrivals := Vector.replicate 64 0
    routes := [] }

/-- The mixer after reset (R86, R102). -/
def Mixer.reset : Mixer :=
  { sources := Vector.replicate 64 Source.reset
    frame := 0
    current := MixFrame.empty
    next := MixFrame.empty
    applied := []
    staged := none
    targets := Vector.replicate 256 0
    meters := Vector.replicate 16 0
    busQueue := []
    held := Vector.replicate 16 { frame := 0xFFFFFFFF, samples := Vector.replicate 48 0 }
    gains := []
    boundaries := []
    stopped := false }

/-- The LABELS settings until a group is applied (R104, R128); the camera of an input that has no function
is given no value by the manual and reads 0 (log 2). -/
def LabelSettings.reset : LabelSettings :=
  { inputs := Vector.replicate 6 { function := .none, camera := 0, edge := .off }
    buses := Vector.replicate 8 none
    goodHold := 0 }

/-- The label unit after reset (R128). -/
def Label.reset : Label :=
  { clips := Vector.replicate 32 none
    order := []
    nextId := 1
    cameras := Vector.replicate 8 { completions := 0, completed := false, lastSlot := 0 }
    stray := 0
    periodTimecode := Timecode.zero
    periodVideo := 0
    applied := LabelSettings.reset
    staged := none
    written := 0
    consumed := 0
    slot := 0
    inFlight := none
    uplink := []
    inbox := []
    boundaries := []
    stopped := false }

/-- A stream after reset (R150). -/
def Stream.reset : Stream :=
  { applied := none, staged := none, fill := 0, hint := 0, keyRequest := false, pictures := [],
    notices := [], claim := none, counter := 0, lastAdmitted := 0 }

/-- The stream governor after reset (R150). -/
def Governor.reset : Governor :=
  { streams := Vector.replicate 4 Stream.reset, boundaries := [], changes := 0, stopped := false }

/-- The LINE settings after reset (R176). -/
def LineSettings.reset : LineSettings :=
  { rate := .off, code := .off, loopback := .none, buses := [], liveStream := none,
    carriesLabels := false, returnEnabled := false }

/-- A send list record after reset (R176). -/
def SendList.reset : SendList :=
  { state := .none, current := 0, loaded := none, reserved := 0, fetching := none, ending := false,
    resumePending := false, serial := 0 }

/-- A coder after reset or LINE_CLEAR (R184, R198). -/
def Coder.reset : Coder := { lastPositive := false, odd := false, pending := 0, out := [] }

/-- A receiver after reset (R198). -/
def Receiver.reset : Receiver :=
  { lastPositive := false, recent := [], undecided := [], spaces := 96, los := true, sync := .hunt, heldGood := false,
    badFrames := 0, ignored := 0, inFrame := false, bits := [], losDue := false, violationsDue := 0 }

/-- A line unit after reset (R176, R198). -/
def Line.reset : Line :=
  { applied := LineSettings.reset
    staged := none
    function := .idle
    startPending := false
    holdBefore := false
    audioDue := false
    newPeriod := false
    labelSent := false
    periodUnlocked := false
    sequence := 0
    tx := none
    next := none
    list := SendList.reset
    jobs := []
    nextJob := 0
    coder := Coder.reset
    receiver := Receiver.reset
    retransmit := []
    looped := []
    level := .space
    boundaries := []
    stopped := false }

/-- Totals of zero (R213). -/
def Totals.zero : Totals :=
  { fill := 0, audio := 0, live := 0, skip := 0, label := 0, file := 0, underruns := 0, violations := 0,
    crcErrors := 0, losFrames := 0, goodFrames := 0 }

/-- The fault unit after reset (R213). -/
def FaultUnit.reset : FaultUnit :=
  { mode := .normal
    cause := none
    further := 0
    classes := Vector.replicate 8 { latest := .address 0, count := 0 }
    state := .inactive
    interval := 100
    stagedInterval := none
    frames := 0
    number := 0
    totals := Vector.replicate 3 Totals.zero
    buffer := Vector.replicate 3 { totals := Totals.zero, interval := 0, length := 0, audioCount := 0 }
    writes := []
    nextSerial := 0
    los := Vector.replicate 3 true
    boundaries := [] }

/-- The part right after reset, no command waiting. -/
def State.reset : State :=
  { path := Path.reset
    command := Command.reset
    report := Report.reset
    timing := Timing.reset
    mixer := Mixer.reset
    label := Label.reset
    governor := Governor.reset
    lines := Vector.replicate 3 Line.reset
    fault := FaultUnit.reset
    pending := [] }

end Sys2Proof.Machine
end

