-- ==== Sys2Proof/Machine/Layout.lean ====
section
/-! DEFINITION. Byte order, codes, and the structures the part writes (Chapter 11). -/

namespace Sys2Proof.Machine

/-! ## Bytes and beats -/

/-- A value in `n` bytes, least significant first (R214: little-endian in memory). -/
def leBytes : Nat → Nat → List Byte
  | 0, _ => []
  | n + 1, v => BitVec.ofNat 8 v :: leBytes n (v / 256)

/-- A value in `n` bytes, most significant first (R214: big-endian on the line). -/
def beBytes (n v : Nat) : List Byte := (leBytes n v).reverse

/-- The value of little-endian bytes. -/
def ofLE : List Byte → Nat
  | [] => 0
  | b :: bs => b.toNat + 256 * ofLE bs

/-- The value of big-endian bytes. -/
def ofBE (bs : List Byte) : Nat := ofLE bs.reverse

/-- The bytes of beats, the byte at the lowest address first. -/
def bytesOfWords (ws : List Word) : List Byte := ws.flatMap fun w => leBytes 8 w.toNat

/-- The beats that hold a run of bytes, the last filled up with zero. -/
def wordsOfBytes : List Byte → List Word
  | b0 :: b1 :: b2 :: b3 :: b4 :: b5 :: b6 :: b7 :: rest =>
    BitVec.ofNat 64 (ofLE [b0, b1, b2, b3, b4, b5, b6, b7]) :: wordsOfBytes rest
  | [] => []
  | bs => [BitVec.ofNat 64 (ofLE bs)]

/-- The `n` bytes at an offset. -/
def slice (bs : List Byte) (offset n : Nat) : List Byte := (bs.drop offset).take n

/-- The little-endian field of `n` bytes at an offset. -/
def field (bs : List Byte) (offset n : Nat) : Nat := ofLE (slice bs offset n)

/-- The byte at an offset, as a number. -/
def byteAt (bs : List Byte) (offset : Nat) : Nat := field bs offset 1

/-- Bytes made up to a length with zero bytes (R214: unused bytes are written as zero). -/
def padTo (n : Nat) (bs : List Byte) : List Byte := bs ++ List.replicate (n - bs.length) 0

/-- A flag as a byte of 0 or 1. -/
def flagByte (b : Bool) : List Byte := [if b then 1 else 0]

/-- A flag as a number. -/
def bit (b : Bool) : Nat := if b then 1 else 0

/-- The full byte enables of a beat. -/
def allEnabled : BitVec 8 := 0xFF

/-- A write of some bytes with full byte enables. -/
def fullWrite (bs : List Byte) : Burst :=
  .write ((wordsOfBytes bs).map fun w => { data := w, enables := allEnabled })

/-- The byte address of a beat address (R1). -/
def BeatAddr.byte (a : BeatAddr) : Nat := 8 * a.toNat

/-- The beat address of a byte address. -/
def beatOf (byte : Nat) : BeatAddr := BitVec.ofNat 33 (byte / 8)

/-- The failing address that a beat address gives (R199). -/
def failAt (a : BeatAddr) : FailAddress := .address (BitVec.ofNat 36 (BeatAddr.byte a))

/-- The same function on every entry of a table. -/
def mapTable {α β : Type} {n : Nat} (f : α → β) (v : Vector α n) : Vector β n :=
  Vector.ofFn fun i => f v[i]

/-! ## Codes -/

/-- The kind of a code in a window entry (11.2), absent above 7. -/
def WindowKind.ofCode (c : Nat) : Option WindowKind :=
  match c with
  | 0 => some WindowKind.none
  | 1 => some .audioIn
  | 2 => some .picture
  | 3 => some .coded
  | 4 => some .busOut
  | 5 => some .label
  | 6 => some .report
  | 7 => some .meas
  | _ => Option.none

/-- The code of a completion (0.5). -/
def Completion.code : Completion → Nat
  | .accepted => 0
  | .statusWaiting => 1
  | .conflict => 2
  | .notOperational => 3
  | .invalid => 4

/-- The code of a reference state (11.3, REFERENCE). -/
def RefState.code : RefState → Nat
  | .absent => 0
  | .locked => 1
  | .freeRun => 2
  | .holdoverExpired => 3

/-- The code of a sync state (11.3, LINE_SIGNAL). -/
def SyncState.code : SyncState → Nat
  | .hunt => 0
  | .locked => 1

/-- The code of a command unit state: its order of listing in R23 (11.6). -/
def CommandState.code : CommandState → Nat
  | .idle => 0
  | .fetching => 1
  | .executing => 2
  | .completing => 3

/-- The code of a measurement state: its order of listing in R204 (11.6). -/
def MeasurementState.code : MeasurementState → Nat
  | .inactive => 0
  | .starting => 1
  | .active => 2

/-- The code of a function state: its order of listing in 8.2 (11.6). -/
def FunctionState.code : FunctionState → Nat
  | .idle => 0
  | .active => 1
  | .halting => 2
  | .halted => 3

/-- The code of a send-list state: its order of listing in R169 (11.6). -/
def ListState.code : ListState → Nat
  | .none => 0
  | .running => 1
  | .held => 2

/-- The code of the mode (11.6). -/
def Mode.code : Mode → Nat
  | .normal => 0
  | .passOnly => 1

/-- The code of a frame kind (R177). -/
def FrameKind.code : FrameKind → Nat
  | .fill => 0
  | .audio => 1
  | .live => 2
  | .skip => 3
  | .label => 4
  | .file => 5

/-- The code of a fatal cause (R201). -/
def FatalCause.code : FatalCause → Nat
  | .tagInUse _ => 1
  | .unknownTag _ => 2
  | .windowParity _ => 3

/-- The detail of a fatal cause (R201). -/
def FatalCause.detail : FatalCause → Nat
  | .tagInUse t => t.toNat
  | .unknownTag t => t.toNat
  | .windowParity i => i

/-- The object number of a nonfatal class (R199). -/
def FaultClass.object : FaultClass → Fin 8
  | .burstSpan => 0
  | .memoryError => 1
  | .ownedWrite => 2
  | .cmdOverrun => 3
  | .badMarker => 4
  | .outputLate => 5
  | .partialControlWrite => 6
  | .internalParity => 7

/-- The kind code of a report (2.5). -/
def Detail.kind : Detail → Nat
  | .lineFunction _ => 1
  | .lineSignal _ _ => 2
  | .sendList _ _ => 3
  | .stream _ _ _ _ => 4
  | .audioUnderrun _ => 5
  | .busSaturation _ _ => 6
  | .reference _ => 7
  | .markOverwrite _ => 8
  | .clipRefused _ _ => 9
  | .fault _ _ => 10
  | .measure _ => 11

/-! ## Structures the part writes -/

/-- A timecode in 4 bytes (11.2). -/
def Timecode.bytes (t : Timecode) : List Byte :=
  [BitVec.ofNat 8 t.ff, BitVec.ofNat 8 t.ss, BitVec.ofNat 8 t.mm, BitVec.ofNat 8 t.hh]

/-- A failing address field of 8 bytes (R215). -/
def FailAddress.value : FailAddress → Nat
  | .address a => a.toNat
  | .location u i => 2 ^ 63 + 256 * u.toNat + i.toNat

/-- The 20 detail bytes of a report (11.3); parts a kind does not use are zero (R214). -/
def Detail.bytes : Detail → List Byte
  | .lineFunction o =>
    padTo 20 (leBytes 1 (match o with | .started => 1 | .halted => 2 | .cleared => 3))
  | .lineSignal los sync => padTo 20 (leBytes 1 (bit los) ++ leBytes 1 sync.code)
  | .sendList o a =>
    padTo 20 (padTo 8 (leBytes 1 (match o with | .held => 1 | .done => 2 | .error => 3)) ++ leBytes 8 a)
  | .stream d c f p => padTo 20 (leBytes 4 d ++ leBytes 4 c ++ leBytes 4 f ++ leBytes 4 p.toNat)
  | .audioUnderrun s => padTo 20 (leBytes 8 s.toNat)
  | .busSaturation s n => padTo 20 (padTo 4 (leBytes 2 s.toNat) ++ leBytes 4 n)
  | .reference s => padTo 20 (leBytes 1 s.code)
  | .markOverwrite s => padTo 20 (leBytes 1 s.toNat)
  | .clipRefused s n => padTo 20 (padTo 4 (leBytes 1 s.toNat) ++ leBytes 4 n)
  | .fault a n => padTo 20 (leBytes 8 a.value ++ leBytes 4 n)
  | .measure i => padTo 20 (leBytes 4 i.toNat)

/-- A report record in 32 bytes (11.3). -/
def Record.bytes (r : Record) : List Byte :=
  leBytes 1 r.detail.kind ++ leBytes 1 r.object ++ leBytes 2 r.repeats ++ r.timecode.bytes ++
    leBytes 4 r.audioCount.toNat ++ r.detail.bytes

/-- The presence flags and clip flags of a label record's byte 3 (11.3). -/
def Clip.flags (c : Clip) : Nat :=
  bit c.good + 2 * bit c.unlocked + 4 * bit c.peak.isSome + 8 * bit c.pictures.isSome +
    16 * bit c.splitFrom.isSome + 32 * bit c.closing.isSome + 64 * bit c.overwritten

/-- A label record in 64 bytes (11.3); an absent field is zero (R214). -/
def Clip.bytes (c : Clip) : List Byte :=
  let out := match c.closing with
    | some k => k.timecode.bytes ++ leBytes 4 k.videoCount.toNat ++ leBytes 4 k.audioCount.toNat
    | none => leBytes 12 0
  let pictures := match c.pictures with
    | some (a, b) => leBytes 4 a.toNat ++ leBytes 4 b.toNat ++ leBytes 4 c.pictureDrops.toNat
    | none => leBytes 12 0
  padTo 64 (leBytes 2 c.id.toNat ++ leBytes 1 c.camera.val ++ leBytes 1 c.flags ++ c.inTimecode.bytes ++
    leBytes 4 c.inVideo.toNat ++ leBytes 4 c.inAudio.toNat ++ out ++ leBytes 4 c.recorded.toNat ++
    leBytes 4 c.dropped.toNat ++ leBytes 4 (c.peak.getD 0) ++ pictures ++
    leBytes 2 (c.splitFrom.getD 0).toNat)

/-- A measurement block in 64 bytes, for its line (11.3). -/
def MeasBlock.bytes (b : MeasBlock) (l : LineId) : List Byte :=
  let t := b.totals
  padTo 64 ([t.fill, t.audio, t.live, t.skip, t.label, t.file, t.underruns, t.violations, t.crcErrors,
      t.losFrames, t.goodFrames, b.interval].flatMap (fun c => leBytes 4 c.toNat) ++
    leBytes 4 b.length ++ leBytes 4 l.val ++ leBytes 4 b.audioCount.toNat)

/-- A bus output container: the sample with its sign in the top 8 bits, little-endian (R98). -/
def containerBytes (x : Sample) : List Byte := leBytes 4 (x.signExtend 32).toNat

/-- A skip notice in the 12 bytes of a SKIP payload, big-endian (11.5). -/
def Notice.bytes (n : Notice) : List Byte :=
  padTo 12 (beBytes 4 n.first.toNat ++ beBytes 4 n.last.toNat ++ flagByte n.isPartial)

/-- The hint beat of a stream (R142, 11.4). -/
def Stream.hintWord (x : Stream) : Word :=
  BitVec.ofNat 64 (ofLE (leBytes 1 x.hint ++ flagByte x.keyRequest ++ leBytes 2 (x.fill / 1024) ++
    leBytes 4 x.lastAdmitted.toNat))

/-! ## Contribution frames -/

/-- One bit into the CRC register (R180). -/
def crcBit (reg : BitVec 32) (b : Bool) : BitVec 32 :=
  let shifted := reg <<< 1
  if reg.msb != b then shifted ^^^ 0x04C11DB7 else shifted

/-- The bits of a byte in line order, most significant first (R177). -/
def byteBits (b : Byte) : List Bool :=
  [b.getLsbD 7, b.getLsbD 6, b.getLsbD 5, b.getLsbD 4, b.getLsbD 3, b.getLsbD 2, b.getLsbD 1, b.getLsbD 0]

/-- The bits of bytes in line order. -/
def lineBits (bs : List Byte) : List Bool := bs.flatMap byteBits

/-- The CRC-32 of bytes in line order (R180). -/
def crc32 (bs : List Byte) : BitVec 32 := ~~~ ((lineBits bs).foldl crcBit 0xFFFFFFFF)

/-- The value of bits, the first the most significant. -/
def ofBits (bits : List Bool) : Nat := bits.foldl (fun v b => 2 * v + bit b) 0

/-- The bytes of decided bits in line order. -/
def bytesOfBits : List Bool → List Byte
  | b7 :: b6 :: b5 :: b4 :: b3 :: b2 :: b1 :: b0 :: rest =>
    BitVec.ofNat 8 (ofBits [b7, b6, b5, b4, b3, b2, b1, b0]) :: bytesOfBits rest
  | _ => []

/-- A contribution frame in 528 bytes: header, payload area and CRC (R177, R178, R180, 11.5). -/
def frameBytes (kind : Nat) (unlocked isPartial key last : Bool) (line : LineId) (sequence : Count16)
    (audioCount : Count32) (tag : Nat) (position : Count32) (payload : List Byte) : List Byte :=
  let header := beBytes 2 Config.syncWord ++
    leBytes 1 (16 * kind + 8 * bit unlocked + 4 * bit isPartial + 2 * bit key + bit last) ++
    leBytes 1 line.val ++ beBytes 2 sequence.toNat ++ beBytes 2 audioCount.toNat ++ beBytes 2 tag ++
    beBytes 2 payload.length ++ beBytes 4 position.toNat
  let body := header ++ padTo Config.payloadBytes payload
  body ++ beBytes 4 (crc32 body).toNat

end Sys2Proof.Machine
end

