-- ==== Sys2Proof/Machine/Operands.lean ====
section
/-! DEFINITION. The structures the part reads: window entries, command records, settings groups, route
records, descriptors, markers and received frames, each from its position in Chapter 11. A group or table
that its owner refuses gives the result word of the first offending item. -/

namespace Sys2Proof.Machine

/-! ## Windows (R4, R11) -/

/-- The window entry in 16 bytes (11.2). -/
def WindowEntry.ofBytes (bs : List Byte) : WindowEntry :=
  { base := BitVec.ofNat 64 (field bs 0 8)
    size := BitVec.ofNat 32 (field bs 8 4)
    kind := BitVec.ofNat 8 (byteAt bs 12)
    object := BitVec.ofNat 8 (byteAt bs 13)
    perFrame := BitVec.ofNat 16 (field bs 14 2) }

/-- An entry is enabled when its kind is not NONE and its size is not 0 (R4). -/
def WindowEntry.enabled (e : WindowEntry) : Bool := e.kind != 0 && e.size != 0

/-- The kind of an entry; NONE for a code that is no kind. -/
def WindowEntry.kindOf (e : WindowEntry) : WindowKind := (WindowKind.ofCode e.kind.toNat).getD .none

/-- The first byte an entry covers (R4). -/
def WindowEntry.first (e : WindowEntry) : Nat := e.base.toNat

/-- The byte after the last one an entry covers (R4). -/
def WindowEntry.limit (e : WindowEntry) : Nat := e.base.toNat + 4096 * e.size.toNat

/-- An enabled entry covers a byte address (R4). -/
def WindowEntry.covers (e : WindowEntry) (byte : Nat) : Bool :=
  e.enabled && e.first ≤ byte && byte < e.limit

/-- The part-owned kinds (R4). -/
def WindowKind.owned : WindowKind → Bool
  | .busOut => true
  | .label => true
  | .report => true
  | .meas => true
  | .none => false
  | .audioIn => false
  | .picture => false
  | .coded => false

/-- Two byte ranges have a byte in common. -/
def overlap (first₁ limit₁ first₂ limit₂ : Nat) : Bool :=
  first₁ < limit₂ && first₂ < limit₁

/-- The object is outside the range of the kind, or not 0 for a part-owned kind (R4, R11). -/
def WindowKind.badObject (k : WindowKind) (object : Nat) : Bool :=
  match k with
  | .none => false
  | .audioIn => 57 < object
  | .picture => 7 < object
  | .coded => 3 < object
  | .busOut => object != 0
  | .label => object != 0
  | .report => object != 0
  | .meas => object != 0

/-- The size is one its kind does not allow (R11's rows for PICTURE, CODED and the part-owned kinds, and
for AUDIO_IN the last source claimed). -/
def WindowEntry.badSize (e : WindowEntry) : Bool :=
  let n := e.size.toNat
  match e.kindOf with
  | .none => false
  | .audioIn => 57 < e.object.toNat + 2 * n - 1
  | .picture => e.perFrame == 0 || 4096 < e.perFrame.toNat || n < e.perFrame.toNat
  | .coded => n == 1
  | .busOut => n != 8
  | .label => 16 < n
  | .report => 8 < n
  | .meas => n != 1

/-- R11's conditions on an entry alone. -/
def WindowEntry.failsAlone (e : WindowEntry) (controlPage : Nat) : Bool :=
  (WindowKind.ofCode e.kind.toNat).isNone
    || 2 ^ 36 < e.limit
    || e.base.toNat % 4096 != 0
    || e.kindOf.badObject e.object.toNat
    || e.badSize
    || (e.kindOf.owned && overlap e.first e.limit controlPage (controlPage + 8192))

/-- R11's conditions on an entry against an enabled entry of lower index. -/
def WindowEntry.failsAgainst (e lower : WindowEntry) : Bool :=
  let same := e.kindOf == lower.kindOf
  (e.kindOf == .audioIn && same &&
      overlap e.object.toNat (e.object.toNat + 2 * e.size.toNat)
        lower.object.toNat (lower.object.toNat + 2 * lower.size.toNat))
    || ((e.kindOf == .picture || e.kindOf == .coded) && same && e.object == lower.object)
    || (e.kindOf.owned && same)
    || ((e.kindOf.owned || lower.kindOf.owned) && overlap e.first e.limit lower.first lower.limit)

/-- The entry fails a condition of R11; an entry that is not enabled passes. -/
def WindowEntry.fails (e : WindowEntry) (lower : List WindowEntry) (controlPage : Nat) : Bool :=
  e.enabled &&
    (e.failsAlone controlPage || lower.any fun d => d.enabled && e.failsAgainst d)

/-- The index of the first entry that fails, taken in index order (R11). -/
def firstBadEntry (controlPage : Nat) : List WindowEntry → List WindowEntry → Option Nat
  | _, [] => none
  | lower, e :: rest =>
    if e.fails lower controlPage then some lower.length
    else firstBadEntry controlPage (lower ++ [e]) rest

/-- The 16 entries of a table in 256 bytes. -/
def windowTable (bs : List Byte) : Vector WindowEntry 16 :=
  Vector.ofFn fun i => WindowEntry.ofBytes (slice bs (16 * i.val) 16)

/-! ## Command records (R24) -/

/-- A number as an index below `n`, when it is one. -/
def toFin (n v : Nat) : Option (Fin n) := if h : v < n then some ⟨v, h⟩ else none

/-- A command record judged by R24: the command to hand to its owner, or the result word of the command
unit's own INVALID. -/
def decodeRecord (bs : List Byte) : Except Nat Handed :=
  let object := byteAt bs 1
  let p1 := BitVec.ofNat 64 (field bs 8 8)
  let inRange {n : Nat} (f : Fin n → Handed) : Except Nat Handed :=
    match toFin n object with
    | some k => .ok (f k)
    | none => .error 0xFFFD
  match byteAt bs 0 with
  | 1 => .ok .applyWindows
  | 2 => inRange .applySettings
  | 3 => .ok (.jamTimecode p1)
  | 4 => inRange fun c => .clipMark c p1
  | 5 => inRange .streamFlush
  | 6 => inRange .lineStart
  | 7 => inRange .lineHalt
  | 8 => inRange .lineClear
  | 9 => inRange .lineResume
  | 10 => inRange fun l => .sendList l p1
  | 11 => .ok (.measureStart p1)
  | 12 => .ok .measureStop
  | _ => .error 0xFFFF

/-! ## Settings groups -/

/-- The first of some checks, each with its result word, that fails. -/
def firstFailure : List (Nat × Bool) → Option Nat
  | [] => none
  | (word, bad) :: rest => if bad then some word else firstFailure rest

/-- The video rate of a rate code (3.4). -/
def VideoRate.ofCode (c : Nat) : Option VideoRate :=
  match c with
  | 0 => some .r25
  | 1 => some .r30
  | 2 => some .r50
  | 3 => some .r60
  | 4 => some .r30df
  | 5 => some .r60df
  | _ => none

/-- The TIMING group (R57). -/
def decodeTiming (bs : List Byte) : Except Nat VideoRate :=
  match VideoRate.ofCode (byteAt bs 0) with
  | some r => .ok r
  | none => .error 1

/-- The mark function of a code (R103). -/
def MarkFunction.ofCode (c : Nat) : Option MarkFunction :=
  match c with
  | 0 => some .none
  | 1 => some .markIn
  | 2 => some .markOut
  | 3 => some .toggle
  | 4 => some .good
  | 5 => some .split
  | _ => Option.none

/-- The edge selection of a code (R103). -/
def EdgeSelection.ofCode (c : Nat) : Option EdgeSelection :=
  match c with
  | 0 => some .off
  | 1 => some .rising
  | 2 => some .falling
  | 3 => some .both
  | _ => none

/-- The items of the LABELS group in the order of their item numbers (R103). -/
def labelChecks (bs : List Byte) : List (Nat × Bool) :=
  ((List.range 6).flatMap fun i =>
    [(3 * i + 1, decide (5 < byteAt bs (3 * i))), (3 * i + 2, decide (7 < byteAt bs (3 * i + 1))),
     (3 * i + 3, decide (3 < byteAt bs (3 * i + 2)))]) ++
  ((List.range 8).map fun c => (19 + c, decide (15 < byteAt bs (18 + c) ∧ byteAt bs (18 + c) ≠ 255))) ++
  [(27, decide (250 < byteAt bs 26))]

/-- The LABELS group (R103). -/
def decodeLabels (bs : List Byte) : Except Nat LabelSettings :=
  match firstFailure (labelChecks bs) with
  | some w => .error w
  | none => .ok
    { inputs := Vector.ofFn fun i =>
        { function := (MarkFunction.ofCode (byteAt bs (3 * i.val))).getD .none
          camera := (toFin 8 (byteAt bs (3 * i.val + 1))).getD 0
          edge := (EdgeSelection.ofCode (byteAt bs (3 * i.val + 2))).getD .off }
      buses := Vector.ofFn fun c => toFin 16 (byteAt bs (18 + c.val))
      goodHold := byteAt bs 26 }

/-- The items of the STREAM group (R143) but for the enable flag; `taken` says whether another stream's
applied settings or staged copy name a camera. -/
def streamChecks (taken : Fin 8 → Bool) (bs : List Byte) : List (Nat × Bool) :=
  let camera := byteAt bs 1
  let capacity := field bs 4 4
  let target := field bs 8 4
  let inUse := match toFin 8 camera with
    | some k => taken k
    | none => false
  [(2, decide (7 < camera ∧ camera ≠ 255)),
   (3, decide (capacity < 65536 ∨ 16777216 < capacity)),
   (4, decide (target = 0 ∨ capacity ≤ target)),
   (5, decide (63 < byteAt bs 12)),
   (6, decide (byteAt bs 13 = 0 ∨ 8 < byteAt bs 13)),
   (7, inUse)]

/-- The STREAM group (R143): settings to apply, or none for a group that disables the stream. -/
def decodeStream (taken : Fin 8 → Bool) (bs : List Byte) : Except Nat (Option StreamSettings) :=
  match byteAt bs 0 with
  | 0 => .ok none
  | 1 =>
    match firstFailure (streamChecks taken bs) with
    | some w => .error w
    | none => .ok (some
      { camera := toFin 8 (byteAt bs 1), capacity := field bs 4 4, target := field bs 8 4,
        base := byteAt bs 12, step := byteAt bs 13 })
  | _ => .error 1

/-- The rate class of a code (8.1). -/
def RateClass.ofCode (c : Nat) : Option RateClass :=
  match c with
  | 0 => some .off
  | 1 => some .a
  | 2 => some .b
  | 3 => some .c
  | _ => none

/-- The zero-run code of a code (R151). -/
def ZeroRun.ofCode (c : Nat) : Option ZeroRun :=
  match c with
  | 0 => some .off
  | 1 => some .z3
  | 2 => some .z4
  | _ => none

/-- The loopback of a code (R151). -/
def Loopback.ofCode (c : Nat) : Option Loopback :=
  match c with
  | 0 => some .none
  | 1 => some .localLoop
  | 2 => some .remote
  | _ => Option.none

/-- Bus k of a LINE group's list is above 15 or equals a bus earlier in the list (R151). -/
def badBus (bs : List Byte) (k : Nat) : Bool :=
  decide (k < byteAt bs 3) &&
    (decide (15 < byteAt bs (4 + k)) || (List.range k).any fun j => byteAt bs (4 + j) == byteAt bs (4 + k))

/-- The items of the LINE group (R151); `streamTaken` and `labelsTaken` say what another line's applied
settings or staged copy hold. -/
def lineChecks (streamTaken : Fin 4 → Bool) (labelsTaken : Bool) (bs : List Byte) : List (Nat × Bool) :=
  let inUse := match toFin 4 (byteAt bs 7) with
    | some n => streamTaken n
    | none => false
  [(1, decide (3 < byteAt bs 0)), (2, decide (2 < byteAt bs 1)), (3, decide (2 < byteAt bs 2)),
   (4, decide (3 < byteAt bs 3)), (5, badBus bs 0), (6, badBus bs 1), (7, badBus bs 2),
   (8, decide (3 < byteAt bs 7 ∧ byteAt bs 7 ≠ 255)), (9, decide (1 < byteAt bs 8)),
   (10, decide (1 < byteAt bs 9)), (11, inUse), (12, decide (byteAt bs 8 = 1) && labelsTaken)]

/-- The LINE group (R151). -/
def decodeLine (streamTaken : Fin 4 → Bool) (labelsTaken : Bool) (bs : List Byte) :
    Except Nat LineSettings :=
  match firstFailure (lineChecks streamTaken labelsTaken bs) with
  | some w => .error w
  | none => .ok
    { rate := (RateClass.ofCode (byteAt bs 0)).getD .off
      code := (ZeroRun.ofCode (byteAt bs 1)).getD .off
      loopback := (Loopback.ofCode (byteAt bs 2)).getD .none
      buses := (List.range (byteAt bs 3)).filterMap fun k => toFin 16 (byteAt bs (4 + k))
      liveStream := toFin 4 (byteAt bs 7)
      carriesLabels := byteAt bs 8 == 1
      returnEnabled := byteAt bs 9 == 1 }

/-- Route records taken in index order (R75): the routes of the enabled ones, or the result word
256 × reason + index of the first that fails. `taken` holds the enabled records of lower index. -/
def decodeRoutes (bs : List Byte) : List (Fin 256) → List RouteRecord → Except Nat (List RouteRecord)
  | [], taken => .ok taken
  | r :: rest, taken =>
    let rec8 := slice bs (8 * r.val) 8
    let flags := byteAt rec8 4
    if flags % 2 = 0 then decodeRoutes bs rest taken
    else
      match toFin 16 (byteAt rec8 2), toFin 64 (byteAt rec8 3) with
      | none, _ => .error (256 * 1 + r.val)
      | some _, none => .error (256 * 2 + r.val)
      | some b, some x =>
        if taken.any (fun t => t.bus == b && t.source == x) then .error (256 * 3 + r.val)
        else if 24 ≤ (taken.filter fun t => t.bus == b).length then .error (256 * 4 + r.val)
        else decodeRoutes bs rest
          (taken ++ [{ index := r, bus := b, source := x, invert := flags / 2 % 2 == 1 }])

/-! ## Beats and descriptors -/

/-- The three fields of a marker beat (R130, 11.4): length, kind and end offset. -/
structure Marker where
  length : Nat
  kind : Nat
  offset : Nat
  deriving DecidableEq, Repr

/-- The fields of a marker beat (11.4). -/
def Marker.ofWord (w : Word) : Marker :=
  { length := w.toNat % 2 ^ 32, kind := w.toNat / 2 ^ 60, offset := w.toNat / 2 ^ 32 % 2 ^ 28 }

/-- A send-list descriptor in 32 bytes (R169, 11.4): the data address is the low 36 bits of its field, the next
address the whole field (log 20). -/
def Descriptor.ofBytes (bs : List Byte) : Descriptor :=
  let flags := byteAt bs 12
  { address := field bs 0 8 % 2 ^ 36
    length := field bs 8 4
    hold := flags % 2 == 1
    last := flags / 2 % 2 == 1
    chain := flags / 4 % 2 == 1
    next := field bs 16 8
    tag := BitVec.ofNat 16 (field bs 14 2) }

/-- A timecode value in P1 (R55, 11.2). -/
def Timecode.ofP1 (p1 : BitVec 64) : Timecode :=
  let bs := leBytes 8 p1.toNat
  { hh := byteAt bs 3, mm := byteAt bs 2, ss := byteAt bs 1, ff := byteAt bs 0 }

/-! ## Received frames (R188-R192) -/

/-- A frame is good: its sync field and its CRC are right (R188). -/
def goodFrame (bs : List Byte) : Bool :=
  ofBE (slice bs 0 2) == Config.syncWord && ofBE (slice bs 524 4) == (crc32 (bs.take 524)).toNat

/-- The kind field of a frame (11.5). -/
def frameKind (bs : List Byte) : Nat := byteAt bs 2 / 16

/-- The payload length of a frame (11.5). -/
def framePayloadLength (bs : List Byte) : Nat := ofBE (slice bs 10 2)

/-- Sample i of channel c of a RETURN frame (R191, 11.5). -/
def returnSample (bs : List Byte) (c : Fin 2) (i : Fin 48) : Sample :=
  BitVec.ofNat 24 (ofBE (slice bs (16 + 144 * c.val + 3 * i.val) 3))

end Sys2Proof.Machine
end

