-- ==== Sys2Proof/WellFormed.lean ====
section
/-! DEFINITION. What a command must be for R1 to admit it at a port. -/

namespace Sys2Proof

/-- The number of beats of a request's burst (R1). -/
def Burst.beats : Burst → Nat
  | .read n => n
  | .write bs => bs.length

/-- The length is 1 to 16 beats (R1). -/
def Burst.wellFormed (b : Burst) : Bool := 1 ≤ b.beats && b.beats ≤ 16

/-- A request R1 admits on the fabric port; the widths of its address and tag are in its type. -/
def Request.wellFormed (r : Request) : Bool := r.burst.wellFormed

/-- A response carries at most the 16 data beats of the longest read (R1). -/
def Response.wellFormed (r : Response) : Bool := r.data.length ≤ 16

/-- A command whose request or response R1 admits. Every other operand is well-formed by its type. -/
def Instr.wellFormed : Instr → Bool
  | .fabricRequest r _ => r.wellFormed
  | .memoryPortAcceptance _ => true
  | .memoryResponse r => r.wellFormed
  | .reset _ => true
  | .producerCountWrite => true
  | .reportConsumedCountWrite => true
  | .labelConsumedCountWrite => true
  | .gainFieldWrite => true
  | .passOnlyEntry _ => true
  | .recordReadReturn r => r.wellFormed
  | .completionWriteReturn r => r.wellFormed
  | .applyWindows => true
  | .windowTableReadReturn r => r.wellFormed
  | .applySettings => true
  | .settingsReadReturn r => r.wellFormed
  | .jamTimecode => true
  | .clipMark => true
  | .streamFlush => true
  | .lineStart => true
  | .lineHalt => true
  | .lineClear => true
  | .lineResume => true
  | .sendList => true
  | .measureStart => true
  | .measureStop => true
  | .reportPost => true
  | .reportPostWriteReturn r => r.wellFormed
  | .referencePulse _ => true
  | .freeRunTimer _ => true
  | .lossTimer _ => true
  | .markEdge _ _ _ => true
  | .mixerAudioBoundary _ => true
  | .busOutWriteReturn r => r.wellFormed
  | .labelVideoBoundary _ => true
  | .labelPost _ => true
  | .labelWriteReturn r => r.wellFormed
  | .governorVideoBoundary => true
  | .lineAudioBoundary _ => true
  | .frameEnd _ => true
  | .payloadReadReturn r => r.wellFormed
  | .fileReadReturn r => r.wellFormed
  | .descriptorFetchReturn r => r.wellFormed
  | .los _ => true
  | .codeViolation _ => true
  | .candidateFrame _ _ => true
  | .lockedFrame _ _ => true
  | .measurementTimer => true
  | .measWriteReturn r => r.wellFormed
  | .interceptedReadResponse _ => true
  | .symbolReceived _ _ => true
  | .symbolSent _ => true

end Sys2Proof
end

