-- ==== Sys2Proof/Machine/Ops.lean ====
section
/-! DEFINITION. The operations the blocks share: windows, report events, faults, upsets, internal requests
and their responses, and the completion of a command. -/

namespace Sys2Proof.Machine

/-! ## Parts of the state -/

/-- A line unit. -/
def State.line (s : State) (l : LineId) : Line := s.lines[l]

/-- The state with a line unit changed. -/
def State.setLine (s : State) (l : LineId) (x : Line) : State := { s with lines := s.lines.set l x }

/-- A stream record. -/
def State.stream (s : State) (n : Fin 4) : Stream := s.governor.streams[n]

/-- The state with a stream record changed. -/
def State.setStream (s : State) (n : Fin 4) (x : Stream) : State :=
  { s with governor := { s.governor with streams := s.governor.streams.set n x } }

/-- The mode is NORMAL (R201). -/
def State.isNormal (s : State) : Bool := s.fault.mode == .normal

/-- The byte address of the control page (R8, R20). -/
def State.controlPage (s : State) : Nat := 2 ^ 24 * s.path.cpb.toNat

/-- The applied window of a part-owned kind; R11 lets a table hold one. -/
def State.ownedWindow (s : State) (k : WindowKind) : Option WindowEntry :=
  s.path.windows.toList.find? fun e => e.enabled && e.kindOf == k

/-- The applied CODED window of a stream. -/
def State.codedWindow (s : State) (n : Fin 4) : Option WindowEntry :=
  s.path.windows.toList.find? fun e => e.enabled && e.kindOf == .coded && e.object.toNat == n.val

/-- Records of the report ring: 128 per page of the REPORT window (2.6). -/
def State.reportRing (s : State) : Nat := 128 * ((s.ownedWindow .report).map (·.size.toNat)).getD 0

/-- Records of the label ring: 64 per page of the LABEL window (R122). -/
def State.labelRing (s : State) : Nat := 64 * ((s.ownedWindow .label).map (·.size.toNat)).getD 0

/-- Bytes of the payload ring of a CODED window (R5). -/
def WindowEntry.ringBytes (w : WindowEntry) : Nat := 4096 * (w.size.toNat - 1)

/-! ## The pending report queue (R30, R31) -/

/-- A saturating sum of 32 bits (R31). -/
def satSum (a b : Nat) : Nat := min (a + b) (2 ^ 32 - 1)

/-- The detail of a record with that of a further event of its pair merged in, by the rule of its kind
(2.5, R31). -/
def Detail.merge (old new : Detail) : Detail :=
  match old, new with
  | .stream d c f _, .stream d' c' f' p' => .stream (satSum d d') (satSum c c') (satSum f f') p'
  | .audioUnderrun a, .audioUnderrun b => .audioUnderrun (a ||| b)
  | .busSaturation a n, .busSaturation b m => .busSaturation (a ||| b) (satSum n m)
  | .markOverwrite a, .markOverwrite b => .markOverwrite (a ||| b)
  | .clipRefused a n, .clipRefused b m => .clipRefused (a ||| b) (satSum n m)
  | .fault _ n, .fault a m => .fault a (satSum n m)
  | _, latest => latest

/-- The record is of this kind and object (2.5). -/
def Record.ofPair (object : Nat) (d : Detail) (r : Record) : Bool :=
  r.object == object && r.detail.kind == d.kind

/-- The record with an event coalesced into it (R31). -/
def Record.coalesce (d : Detail) (r : Record) : Record :=
  { r with repeats := min (r.repeats + 1) 65535, detail := r.detail.merge d }

/-- The record is a FAULT record. -/
def Record.isFault (r : Record) : Bool := r.detail.kind == 10

/-- A new record enters the queue: a FAULT record behind the FAULT records at the head, any other at the
tail (R30). -/
def enterQueue (r : Record) (queue : List Record) : List Record :=
  if r.isFault then queue.takeWhile Record.isFault ++ r :: queue.dropWhile Record.isFault
  else queue ++ [r]

/-- The queue after the report unit has taken an event (R30, R31). -/
def takeEvent (r : Record) (queue : List Record) : List Record :=
  if queue.any (Record.ofPair r.object r.detail) then
    queue.map fun q => if q.ofPair r.object r.detail then q.coalesce r.detail else q
  else enterQueue r queue

/-- The record an event makes when its pair has none (R30). -/
def State.firstRecord (s : State) (object : Nat) (d : Detail) : Record :=
  { object := object, repeats := 1, timecode := s.timing.timecode, audioCount := s.timing.audioCount,
    detail := d }

/-- The report unit takes an offered event. While the mode is PASS-ONLY no record is made (R37), and before the
report unit has taken the entry an event whose pair has a record is still coalesced into it (R31, R201). -/
def State.takesOffer (s : State) (object : Nat) (d : Detail) : Bool :=
  s.isNormal || (!s.report.stopped && s.report.queue.any (Record.ofPair object d))

/-- An event offered to the report unit (R30, R31, R37). -/
def offer (object : Nat) (d : Detail) (s : State) : State :=
  if s.takesOffer object d then
    { s with report := { s.report with queue := takeEvent (s.firstRecord object d) s.report.queue } }
  else s

/-- The pair is pending: its record is in the queue or in the post buffer (R32). -/
def State.pairPending (s : State) (object : Nat) (d : Detail) : Bool :=
  s.report.queue.any (Record.ofPair object d) ||
    match s.report.post with
    | some p => p.record.ofPair object d
    | none => false

/-! ## Internal requests (R16) -/

/-- The places of the requesters in the ring of R16. -/
def commandQueue : Fin 8 := 0
/-- See `commandQueue`. -/
def reportQueue : Fin 8 := 1
/-- See `commandQueue`. -/
def mixerQueue : Fin 8 := 2
/-- See `commandQueue`. -/
def labelQueue : Fin 8 := 3
/-- See `commandQueue`. -/
def lineQueue (l : LineId) : Fin 8 := ⟨4 + l.val, by omega⟩
/-- See `commandQueue`. -/
def faultQueue : Fin 8 := 7

/-- The state with one requester's queue changed. -/
def State.setQueue (s : State) (q : Fin 8) (x : RequestQueue) : State :=
  { s with path := { s.path with queues := s.path.queues.set q x } }

/-- Write k of the 32 writes of a bus output entry: for bus k / 2, samples 0 to 31 when k is even and 32
to 47 when it is odd (R98). -/
def BusEntry.request (e : BusEntry) (w : WindowEntry) (k : Fin 32) : MemRequest :=
  let bus : Fin 16 := ⟨k.val / 2, by omega⟩
  let slot := w.first + 2048 * bus.val + 256 * (e.frame.toNat % 8)
  let samples := e.samples[bus].toList
  if k.val % 2 = 0 then { addr := beatOf slot, burst := fullWrite ((samples.take 32).flatMap containerBytes) }
  else { addr := beatOf (slot + 128), burst := fullWrite ((samples.drop 32).flatMap containerBytes) }

/-- The request a made request becomes when it is presented: fixed, or taken from the window and the
contents that stand then (R98, R210, R211). -/
def State.requestOf (s : State) (m : Made) : Option MemRequest :=
  match m.fixed with
  | some r => some r
  | none =>
    match m.purpose with
    | .busWrite frame k =>
      match s.ownedWindow .busOut, s.mixer.busQueue.find? (fun e => e.frame == frame) with
      | some w, some e => some (e.request w k)
      | _, _ => none
    | .measWrite _ l _ =>
      (s.ownedWindow .meas).map fun w =>
        { addr := beatOf (w.first + 64 * l.val), burst := fullWrite ((s.fault.buffer[l]).bytes l) }
    | _ => none

/-- What the requester notes when one of its requests is presented: the mixer its entry's progress (R97),
the fault unit the interval number of the block. R210 says the last block written; of blocks presented with
different numbers, the last of which is then lost or cancelled, it says no more: DESIGN CHOICE, the number of
the block last presented (log 40). -/
def notePresented (m : Made) (s : State) : State :=
  match m.purpose with
  | .busWrite frame _ =>
    { s with mixer := { s.mixer with busQueue := s.mixer.busQueue.map fun e =>
        if e.frame == frame then { e with presented := e.presented + 1 } else e } }
  | .measWrite serial l _ =>
    if m.fixed.isSome then s else
    { s with fault := { s.fault with writes := s.fault.writes.map fun g =>
        if g.serial == serial then { g with begun := true, number := s.fault.buffer[l].interval } else g } }
  | _ => s

/-- A requester with no waiting request presents the next one it has made (R16). No internal request is
presented while the mode is PASS-ONLY (R18). -/
def presentNext (q : Fin 8) (s : State) : State :=
  let x := s.path.queues[q]
  match x.waiting, x.later with
  | none, m :: rest =>
    if s.isNormal then
      match s.requestOf m with
      | some r =>
        notePresented m (s.setQueue q
          { waiting :=
              some { purpose := m.purpose, request := r, ahead := s.path.forward.length, stale := false }
            later := rest })
      | none => s.setQueue q { waiting := none, later := rest }
    else s
  | _, _ => s

/-- A requester makes a request: it is presented now, or in its turn (R16). -/
def makeRequest (q : Fin 8) (m : Made) (s : State) : State :=
  if s.isNormal then
    let x := s.path.queues[q]
    presentNext q (s.setQueue q { x with later := x.later ++ [m] })
  else s

/-- Several requests of one requester, in order. -/
def makeRequests (q : Fin 8) (ms : List Made) (s : State) : State :=
  ms.foldl (fun s m => makeRequest q m s) s

/-- A requester's waiting request is eligible (R16, R18). A path unit that has taken the entry into PASS-ONLY
mode grants none (R18, R201). -/
def State.eligible (s : State) (q : Fin 8) : Bool :=
  !s.path.stopped && s.path.pool.toList.any Option.isNone &&
    match s.path.queues[q].waiting with
    | some w => w.ahead == 0
    | none => false

/-- The lockout count changed. -/
def setLockout (n : Nat) (s : State) : State := { s with path := { s.path with lockout := n } }

/-- The lockout count returns to 0 when no internal request is eligible (R17). -/
def settleLockout (s : State) : State := if (List.finRange 8).any s.eligible then s else setLockout 0 s

/-- A requester's waiting requests are withdrawn (R18). -/
def withdraw (q : Fin 8) (s : State) : State := settleLockout (s.setQueue q RequestQueue.empty)

/-- A read of whole beats at a byte address. -/
def readAt (byte beats : Nat) : MemRequest := { addr := beatOf byte, burst := .read beats }

/-! ## Faults (R199, R201, R202) -/

/-- The fault unit takes a nonfatal fault, which it does only in NORMAL mode (R199). -/
def raiseFault (c : FaultClass) (a : FailAddress) (s : State) : State :=
  if s.isNormal then
    let k := c.object
    offer k.val (.fault a 1)
      { s with fault := { s.fault with
          classes := s.fault.classes.set k { latest := a, count := s.fault.classes[k].count + 1 } } }
  else s

/-- The fault unit takes a fatal cause: the first makes the mode PASS-ONLY, a later one is counted (R201,
R202). The fault unit's own waiting writes are withdrawn (R212, log 12). -/
def raiseFatal (c : FatalCause) (s : State) : State :=
  if s.isNormal then
    withdraw faultQueue { s with fault := { s.fault with mode := .passOnly, cause := some c } }
  else { s with fault := { s.fault with further := min (s.fault.further + 1) 255 } }

/-- A stored value's parity goes bad (log 5). A FREE clip record holds nothing that is checked. -/
def strike (u : Upset) (s : State) : State :=
  match u with
  | .window i => { s with path := { s.path with parityBad := s.path.parityBad.set i true } }
  | .accumulator inNext b i =>
    let spoil (f : MixFrame) : MixFrame :=
      { f with rows := f.rows.set b (f.rows[b].set i { f.rows[b][i] with parityBad := true }) }
    if inNext then { s with mixer := { s.mixer with next := spoil s.mixer.next } }
    else { s with mixer := { s.mixer with current := spoil s.mixer.current } }
  | .clip i =>
    { s with label := { s.label with
        clips := s.label.clips.set i ((s.label.clips[i]).map fun c => { c with parityBad := true }) } }

/-- Several upsets. -/
def strikes (us : List Upset) (s : State) : State := us.foldl (fun s u => strike u s) s

/-! ## Responses to internal requests (R18) -/

/-- The internal request that holds a memory-port tag, with its place in the pool of tags 64-95. -/
def State.heldBy (s : State) (tag : BitVec 8) : Option (Fin 32 × Issued) :=
  match toFin 32 (tag.toNat - 64) with
  | some k => if 64 ≤ tag.toNat then (s.path.pool[k]).map fun i => (k, i) else none
  | none => none

/-- The tag returns to the pool (R18). -/
def freeTag (k : Fin 32) (s : State) : State :=
  { s with path := { s.path with pool := s.path.pool.set k none } }

/-- An OK response is as long as its request: a read's beats, nothing for a write (R1). -/
def Issued.fits (i : Issued) (r : Response) : Bool :=
  !r.ok || match i.request.burst with
    | .read n => r.data.length == n
    | .write _ => r.data.isEmpty

/-- The tag is freed, and an ERROR response makes a MEMORY_ERROR fault (R18), before the requester reacts to the
response: DESIGN CHOICE (log 46). -/
def acceptResponse (k : Fin 32) (i : Issued) (r : Response) (s : State) : State :=
  let s := freeTag k s
  if r.ok then s else raiseFault .memoryError (failAt i.request.addr) s

/-- The requester of a purpose has taken the entry into PASS-ONLY mode (R201). The fault unit has taken it with
the fatal cause (log 12). -/
def State.requesterStopped (s : State) (p : Purpose) : Bool :=
  match p with
  | .recordRead => s.command.stopped
  | .completionWrite _ => s.command.stopped
  | .tableRead _ => s.command.stopped
  | .settingsRead _ => s.command.stopped
  | .reportPost _ => s.report.stopped
  | .busWrite _ _ => s.mixer.stopped
  | .labelWrite _ => s.label.stopped
  | .payloadRead l _ _ => (s.line l).stopped
  | .fileRead l _ _ => (s.line l).stopped
  | .descriptorFetch l _ => (s.line l).stopped
  | .measWrite _ _ _ => !s.isNormal

/-- The responses to a request of a purpose are discarded: the path unit or the requester has taken the entry
into PASS-ONLY mode (R18, R201). -/
def State.discards (s : State) (p : Purpose) : Bool := s.path.stopped || s.requesterStopped p

/-- The step of a response to an internal request of one purpose. After the entry into PASS-ONLY mode the
response is discarded and its tag returns to the pool (R18, R201). A response whose tag no such request holds
is no event of this kind: nothing happens (log 4). The fault of an ERROR comes before the requester's own reaction,
which R18 does not order: DESIGN CHOICE (log 46). -/
def internalReturn (wanted : Purpose → Bool) (taken : Issued → Response → State → State)
    (r : Response) (s : State) : Host.Outcome State Fault Refusal :=
  if r.wellFormed then
    match s.heldBy r.tag with
    | some (k, i) =>
      if wanted i.purpose then
        if s.discards i.purpose then .next (freeTag k s)
        else if i.fits r then .next (taken i r (acceptResponse k i r s))
        else .refused .malformedResponse
      else .next s
    | none => .next s
  else .refused .malformedResponse

/-! ## Completion of a command (R25) -/

/-- The completion write of the command in execution: byte 2 and bytes 4 to 7 of its record (R25, 11.2). -/
def State.completionRequest (s : State) (c : Completion) (result : Nat) : MemRequest :=
  { addr := beatOf (s.controlPage + 0x0C00 + 32 * (s.command.executing.toNat % Config.commandSlots))
    burst := .write [{ data := BitVec.ofNat 64 (2 ^ 16 * c.code + 2 ^ 32 * (result % 2 ^ 32)), enables := 0xF4 }] }

/-- The completion code is decided: the command unit enters COMPLETING and presents the completion write
(R25). A command unit that has taken the entry into PASS-ONLY gives no completion (R27). -/
def complete (c : Completion) (result : Nat) (s : State) : State :=
  if s.command.stopped then { s with command := { s.command with handed := none } }
  else
    makeRequest commandQueue
      { purpose := .completionWrite false, fixed := some (s.completionRequest c result) }
      { s with command := { s.command with state := .completing, handed := none, gather := none } }

end Sys2Proof.Machine
end

