-- ==== Sys2Proof/Machine/Timing.lean ====
section
/-! DEFINITION. The timing unit: references, boundaries, timecode and capture slots (Chapter 3). -/

namespace Sys2Proof.Machine

/-! ## Periods (R43) -/

/-- P of the video reference at a rate, in core clocks (R43). -/
def VideoRate.period : VideoRate → Nat
  | .r25 => 8000000
  | .r30 => 6666667
  | .r50 => 4000000
  | .r60 => 3333333
  | .r30df => 6673333
  | .r60df => 3336667

/-- P of a reference (R43). -/
def Timing.period (t : Timing) : Ref → Nat
  | .video => t.rate.period
  | .audio => Config.audioPeriod

/-- The acceptance threshold, floor(P / 2) (R43). -/
def Timing.acceptance (t : Timing) (r : Ref) : Nat := t.period r / 2

/-- The loss threshold, P + floor(P / 4) (R43). -/
def Timing.lossThreshold (t : Timing) (r : Ref) : Nat := t.period r + t.period r / 4

/-- The holdover limit of a reference (R46). -/
def holdoverLimit : Ref → Nat
  | .video => Config.videoHoldover
  | .audio => Config.audioHoldover

/-- One of the two references. -/
def Timing.reference (t : Timing) : Ref → Reference
  | .video => t.video
  | .audio => t.audio

/-- The timing unit with a reference changed. -/
def Timing.setReference (t : Timing) (r : Ref) (x : Reference) : Timing :=
  match r with
  | .video => { t with video := x }
  | .audio => { t with audio := x }

/-- The state with a reference changed. -/
def State.setReference (s : State) (r : Ref) (x : Reference) : State :=
  { s with timing := s.timing.setReference r x }

/-- The object number of a reference in its REFERENCE event (R48). -/
def refObject : Ref → Nat
  | .video => 0
  | .audio => 1

/-! ## Timecode (R53, R57) -/

/-- The frame base of a rate (3.4). -/
def VideoRate.frameBase : VideoRate → Nat
  | .r25 => 25
  | .r30 => 30
  | .r50 => 50
  | .r60 => 60
  | .r30df => 30
  | .r60df => 60

/-- How many frame numbers a rate skips at a minute: 0 for a rate without drop-frame (3.4). -/
def VideoRate.skipped : VideoRate → Nat
  | .r25 => 0
  | .r30 => 0
  | .r50 => 0
  | .r60 => 0
  | .r30df => 2
  | .r60df => 4

/-- The timecode names a skipped frame of the rate (R53). -/
def Timecode.isSkipped (t : Timecode) (r : VideoRate) : Bool :=
  t.ss == 0 && t.mm % 10 != 0 && t.ff < r.skipped

/-- A valid timecode of a rate (R53). -/
def Timecode.valid (t : Timecode) (r : VideoRate) : Bool :=
  t.hh ≤ 23 && t.mm ≤ 59 && t.ss ≤ 59 && t.ff < r.frameBase && !t.isSkipped r

/-- The carries of R53 from frames into seconds, minutes and hours. -/
def Timecode.carry (t : Timecode) (base : Nat) : Timecode :=
  if t.ff < base then t
  else if t.ss + 1 < 60 then { t with ff := 0, ss := t.ss + 1 }
  else if t.mm + 1 < 60 then { t with ff := 0, ss := 0, mm := t.mm + 1 }
  else if t.hh + 1 < 24 then { hh := t.hh + 1, mm := 0, ss := 0, ff := 0 }
  else Timecode.zero

/-- The timecode advanced by one frame (R53). -/
def Timecode.advance (t : Timecode) (r : VideoRate) : Timecode :=
  let u := Timecode.carry { t with ff := t.ff + 1 } r.frameBase
  if u.ss == 0 && u.ff == 0 && u.mm % 10 != 0 then { u with ff := r.skipped } else u

/-- The timecode adjusted to a new rate (R57). -/
def Timecode.adjust (t : Timecode) (r : VideoRate) : Timecode :=
  let u := if r.frameBase ≤ t.ff then { t with ff := r.frameBase - 1 } else t
  if u.isSkipped r then { u with ff := r.skipped } else u

/-! ## Boundaries (R50-R52) -/

/-- The timing unit's own reaction to a video boundary: count, timecode, jam, rate (R52, R57). -/
def Timing.countVideo (t : Timing) : Timing :=
  let advanced := t.timecode.advance t.rate
  let jammed := t.jam.getD advanced
  let rate := t.stagedRate.getD t.rate
  { t with
    videoCount := t.videoCount + 1
    timecode := if rate = t.rate then jammed else jammed.adjust rate
    jam := none
    rate := rate
    stagedRate := none }

/-- A video boundary is counted and handed to the label unit and the governor (R50, R52). -/
def videoBoundary (cause : BoundaryCause) (s : State) : State :=
  let t := s.timing.countVideo
  let b : VideoBoundary := { state := t.video.state, cause := cause, timecode := t.timecode, count := t.videoCount }
  { s with
    timing := t
    label := { s.label with boundaries := s.label.boundaries ++ [b] }
    governor := { s.governor with boundaries := s.governor.boundaries ++ [b] } }

/-- An audio boundary is counted and handed to the mixer, the lines and the measurement timer (R50, R51). -/
def audioBoundary (cause : BoundaryCause) (s : State) : State :=
  let t := { s.timing with audioCount := s.timing.audioCount + 1 }
  let b : AudioBoundary := { state := t.audio.state, cause := cause, count := t.audioCount }
  { s with
    timing := t
    mixer := { s.mixer with boundaries := s.mixer.boundaries ++ [b] }
    lines := mapTable (fun x => { x with boundaries := x.boundaries ++ [b] }) s.lines
    fault := { s.fault with boundaries := s.fault.boundaries ++ [b] } }

/-- A boundary of a reference. -/
def boundary (r : Ref) (cause : BoundaryCause) (s : State) : State :=
  match r with
  | .video => videoBoundary cause s
  | .audio => audioBoundary cause s

/-- A REFERENCE event with the reference's new state (R48). -/
def referenceEvent (r : Ref) (st : RefState) (s : State) : State := offer (refObject r) (.reference st) s

/-! ## The reference state machine (R44-R47) -/

/-- A pulse at or above the acceptance threshold (R44). -/
def acceptPulse (r : Ref) (s : State) : State :=
  let x := s.timing.reference r
  let s := boundary r .pulse (s.setReference r { x with state := .locked, elapsed := 0, freeRun := 0 })
  match x.state with
  | .freeRun => referenceEvent r .locked s
  | .holdoverExpired => referenceEvent r .locked s
  | .absent => s
  | .locked => s

/-- A pulse below the acceptance threshold (R45). -/
def rejectPulse (r : Ref) (s : State) : State :=
  let x := s.timing.reference r
  s.setReference r { x with glitches := min (x.glitches + 1) 65535 }

/-- REFERENCE_PULSE (R44, R45). A timing unit that has stopped takes no pulse (R62). -/
def execReferencePulse (ref : Ref) (s : State) : Host.Outcome State Fault Refusal :=
  if s.timing.stopped then .next s
  else if s.timing.acceptance ref ≤ (s.timing.reference ref).elapsed then .next (acceptPulse ref s)
  else .next (rejectPulse ref s)

/-- The free-run timer makes a boundary (R46). -/
def freeRunExpiry (r : Ref) (s : State) : State :=
  let x := s.timing.reference r
  match x.state with
  | .freeRun =>
    if holdoverLimit r ≤ x.freeRun + 1 then
      referenceEvent r .holdoverExpired (boundary r .timer
        (s.setReference r { x with state := .holdoverExpired, elapsed := 0, freeRun := x.freeRun + 1 }))
    else boundary r .timer (s.setReference r { x with elapsed := 0, freeRun := x.freeRun + 1 })
  | .absent => boundary r .timer (s.setReference r { x with elapsed := 0 })
  | .holdoverExpired => boundary r .timer (s.setReference r { x with elapsed := 0 })
  | .locked => s

/-- FREE_RUN_TIMER (R46): the timer runs in every state but LOCKED and expires when the elapsed count
reaches P; before that there is no expiry. -/
def execFreeRunTimer (ref : Ref) (s : State) : Host.Outcome State Fault Refusal :=
  if s.timing.stopped then .next s
  else if (s.timing.reference ref).state ≠ .locked ∧ s.timing.period ref ≤ (s.timing.reference ref).elapsed then
    .next (freeRunExpiry ref s)
  else .next s

/-- The loss timer makes a boundary and the reference enters FREE_RUN (R47). -/
def lossExpiry (r : Ref) (s : State) : State :=
  let x := s.timing.reference r
  referenceEvent r .freeRun
    (boundary r .timer (s.setReference r { x with state := .freeRun, elapsed := 0, freeRun := 0 }))

/-- LOSS_TIMER (R47): the timer runs in LOCKED and expires when the elapsed count reaches the loss
threshold; before that there is no expiry. -/
def execLossTimer (ref : Ref) (s : State) : Host.Outcome State Fault Refusal :=
  if s.timing.stopped then .next s
  else if (s.timing.reference ref).state = .locked ∧
      s.timing.lossThreshold ref ≤ (s.timing.reference ref).elapsed then
    .next (lossExpiry ref s)
  else .next s

/-- One core clock of a reference's elapsed count (R42). It stands while a timer's expiry is due: the
expiry is taken at that core clock (log 3). -/
def tickReference (t : Timing) (r : Ref) : Reference :=
  let x := t.reference r
  let due := if x.state = .locked then t.lossThreshold r else t.period r
  if x.elapsed < due then { x with elapsed := x.elapsed + 1 } else x

/-- One core clock of the part: what step does while no command waits (log 3). A timing unit that has
stopped counts nothing (R62). -/
def coreClock (s : State) : State :=
  if s.timing.stopped then s
  else { s with timing :=
    { s.timing with video := tickReference s.timing .video, audio := tickReference s.timing .audio } }

/-! ## Capture slots (R58-R60) -/

/-- A mark fills a capture slot (R59, R60). The slots of a timing unit that has stopped keep what they hold
(R62). -/
def fillSlot (i : Fin 7) (mark : Option (MarkFunction × Fin 8)) (s : State) : State :=
  let full := (s.timing.slots[i]).isSome
  let s' := { s with timing := { s.timing with
    slots := s.timing.slots.set i (some { audioCount := s.timing.audioCount, overwritten := full, mark := mark }) } }
  if s.timing.stopped then s
  else if full then offer 0 (.markOverwrite (1#7 <<< i.val)) s' else s'

/-- An edge matches a selection (R58). -/
def EdgeSelection.accepts (e : EdgeSelection) (isRising : Bool) : Bool :=
  match e with
  | .off => false
  | .rising => isRising
  | .falling => !isRising
  | .both => true

/-- MARK_EDGE (R58, R59): the filtered level follows a sampled level that has differed from it for 200 core
clocks, whatever the selection; a matching edge fills the input's slot. -/
def execMarkEdge (input : Fin 6) (high : Bool) (clocks : Nat) (s : State) : Host.Outcome State Fault Refusal :=
  if s.timing.stopped then .next s
  else if s.timing.filtered[input] = high ∨ clocks < Config.markFilterClocks then .next s
  else
    let s' := { s with timing := { s.timing with filtered := s.timing.filtered.set input high } }
    if (s.timing.selections[input]).accepts high then .next (fillSlot (input.castLE (by omega)) none s')
    else .next s'

/-! ## JAM_TIMECODE (R55) -/

/-- The checks of R55 against the rate applied at the taking. -/
def jamChecks (t : Timecode) (r : VideoRate) : List (Nat × Bool) :=
  [(1, decide (23 < t.hh)), (2, decide (59 < t.mm)), (3, decide (59 < t.ss)),
   (4, decide (r.frameBase ≤ t.ff)), (5, t.isSkipped r)]

/-- JAM_TIMECODE (R55): a valid value becomes the staged jam. A timing unit that has stopped takes no
command. -/
def execJamTimecode (s : State) : Host.Outcome State Fault Refusal :=
  match s.command.handed with
  | some (.jamTimecode p1) =>
    if s.timing.stopped then .next s
    else
      let t := Timecode.ofP1 p1
      match firstFailure (jamChecks t s.timing.rate) with
      | some w => .next (complete .invalid w s)
      | none => .next (complete .accepted 0 { s with timing := { s.timing with jam := some t } })
  | _ => .next s

end Sys2Proof.Machine
end

