-- ==== Sys2Proof/Machine/Clips.lean ====
section
/-! DEFINITION. The label unit: marks, clips, the label ring and the uplink queue (Chapter 6). -/

namespace Sys2Proof.Machine

/-! ## The clip table (R107, R121, R126) -/

/-- The state with the label unit changed. -/
def State.setLabel (s : State) (x : Label) : State := { s with label := x }

/-- The state with a clip record changed. -/
def setClip (i : Fin 32) (c : Option Clip) (s : State) : State :=
  s.setLabel { s.label with clips := s.label.clips.set i c }

/-- A record that is OPEN (R107). -/
def Clip.isOpen (c : Clip) : Bool := c.closing.isNone

/-- The record of a camera's OPEN clip. -/
def Label.openOf (x : Label) (k : Fin 8) : Option (Fin 32) :=
  (List.finRange 32).find? fun i =>
    match x.clips[i] with
    | some c => c.isOpen && c.camera == k
    | none => false

/-- The open clip id of a camera, 0 when it has none (R107). -/
def Label.openId (x : Label) (k : Fin 8) : Count16 :=
  match x.openOf k with
  | some i => ((x.clips[i]).map (·.id)).getD 0
  | none => 0

/-- The number of records that are not FREE (R107). -/
def Label.occupied (x : Label) : Nat := (x.clips.toList.filter Option.isSome).length

/-- The FREE record of lowest index (R108). -/
def Label.freeRecord (x : Label) : Option (Fin 32) :=
  (List.finRange 32).find? fun i => (x.clips[i]).isNone

/-- A record becomes FREE and leaves the close-order list (R121). -/
def freeClip (i : Fin 32) (s : State) : State :=
  s.setLabel { s.label with
    clips := s.label.clips.set i none
    order := s.label.order.filter (· != i) }

/-- A record found with a parity error is freed; its label write, if in flight, goes on without it, and
an INTERNAL_PARITY fault is made (R126, R200). -/
def dropBadClip (i : Fin 32) (s : State) : State :=
  let s := freeClip i s
  let s := s.setLabel { s.label with
    inFlight := if s.label.inFlight = some (some i) then some none else s.label.inFlight }
  raiseFault .internalParity (.location 2 (BitVec.ofNat 8 i.val)) s

/-- The records of some kind are read, and those with a parity error dropped (R126). The manual gives no order
for several of them: DESIGN CHOICE, by record index (log 39). -/
def readClips (wanted : Clip → Bool) (s : State) : State :=
  (List.finRange 32).foldl (fun s i =>
    match s.label.clips[i] with
    | some c => if wanted c && c.parityBad then dropBadClip i s else s
    | none => s) s

/-- The same change on every record of some kind. -/
def updateClips (wanted : Clip → Bool) (f : Clip → Clip) (s : State) : State :=
  s.setLabel { s.label with
    clips := mapTable (fun c => c.map fun c => if wanted c then f c else c) s.label.clips }

/-- The record is CLOSED and satisfies a test of its closing fields. -/
def Clip.closedWith (test : Closing → Bool) (c : Clip) : Bool :=
  match c.closing with
  | some k => test k
  | none => false

/-- The closing fields of a CLOSED record changed. -/
def Clip.mapClosing (f : Closing → Closing) (c : Clip) : Clip := { c with closing := c.closing.map f }

/-- The record is CLOSED with a hold of 0 (R121). -/
def Clip.released : Clip → Bool := Clip.closedWith fun k => k.hold == 0

/-- The record is released and its ring done flag is clear (R121, R125). -/
def Clip.owedToRing : Clip → Bool := Clip.closedWith fun k => k.hold == 0 && !k.ringDone

/-- Both posting flags of the record are set (R121). -/
def Clip.posted : Clip → Bool := Clip.closedWith fun k => k.ringDone && k.uplinkDone

/-- A record's closing fields are changed, and it becomes FREE when both posting flags are set (R121). -/
def markPosted (i : Fin 32) (f : Closing → Closing) (s : State) : State :=
  match s.label.clips[i] with
  | some c =>
    let c' := c.mapClosing f
    if c'.posted then freeClip i s else setClip i (some c') s
  | none => s

/-- The first record of the close-order list that satisfies a test. -/
def Label.firstClosed (x : Label) (test : Closing → Bool) : Option (Fin 32) :=
  x.order.find? fun i =>
    match x.clips[i] with
    | some c => c.closedWith test
    | none => false

/-- The ring's head record (R121, R122). -/
def Label.ringHead (x : Label) : Option (Fin 32) := x.firstClosed fun k => !k.ringDone

/-- The uplink's head record (R121, R124). -/
def Label.uplinkHead (x : Label) : Option (Fin 32) := x.firstClosed fun k => !k.uplinkDone

/-! ## Settling the two destinations (R122, R124) -/

/-- Some line carries labels and is not IDLE (R124). -/
def State.uplinkCarried (s : State) : Bool :=
  s.lines.toList.any fun x => x.applied.carriesLabels && x.function != .idle

/-- One decision on the uplink head, and whether another record may follow (R124). The head is read, so checked,
before its hold or its waiting is looked at: DESIGN CHOICE (R126, log 39). -/
def uplinkOnce (s : State) : State × Bool :=
  match s.label.uplinkHead with
  | none => (s, false)
  | some i =>
    match s.label.clips[i] with
    | none => (s, false)
    | some c =>
      if c.parityBad then (dropBadClip i s, true)
      else if !c.released then (s, false)
      else if s.uplinkCarried then
        if s.label.uplink.length < Config.uplinkPlaces then
          (markPosted i (fun k => { k with uplinkDone := true })
            (s.setLabel { s.label with uplink := s.label.uplink ++ [c.bytes] }), true)
        else (s, false)
      else (markPosted i (fun k => { k with uplinkDone := true }) s, true)

/-- One setting of ring done with no LABEL window applied, and whether another may follow (R122). A record
whose write is in flight has it set when the write returns (R125). The head is read, so checked, before its hold
is looked at: DESIGN CHOICE (R126, log 39). -/
def ringOnce (s : State) : State × Bool :=
  match s.label.ringHead with
  | none => (s, false)
  | some i =>
    match s.label.clips[i] with
    | none => (s, false)
    | some c =>
      if c.parityBad then (dropBadClip i s, true)
      else if c.released && s.label.inFlight != some (some i) then
        (markPosted i (fun k => { k with ringDone := true }) s, true)
      else (s, false)

/-- A decision made again while it changes something, for at most `n` records. -/
def settle (once : State → State × Bool) : Nat → State → State
  | 0, s => s
  | n + 1, s =>
    match once s with
    | (s', true) => settle once n s'
    | (s', false) => s'

/-- The uplink decisions that stand open (R124). A label unit that has stopped makes none (R127). -/
def uplinkSettle (s : State) : State := if s.label.stopped then s else settle uplinkOnce 32 s

/-- With no LABEL window applied, the ring done flags that R122 sets at once. -/
def ringSettle (s : State) : State :=
  if s.label.stopped then s
  else if (s.ownedWindow .label).isSome then s else settle ringOnce 32 s

/-- The LABEL window is gone: a released record of the list that is still owed to the ring, and whose write
is not in flight, has its ring done flag set (R125). -/
def ringGiveUp (s : State) (i : Fin 32) : State :=
  match s.label.clips[i] with
  | none => s
  | some c =>
    if c.owedToRing && s.label.inFlight != some (some i) then
      if c.parityBad then dropBadClip i s else markPosted i (fun k => { k with ringDone := true }) s
    else s

/-- Every record of the list at the application of a table without a LABEL window (R125). -/
def ringGone (s : State) : State :=
  if s.label.stopped then s
  else if (s.ownedWindow .label).isSome then s else s.label.order.foldl ringGiveUp s

/-- Both destinations after a change of the list or of a record's hold. -/
def postSettle (s : State) : State := uplinkSettle (ringSettle s)

/-! ## Frame completions (R105) -/

/-- The last completed slot after a completion of a frame slot (R105). R105 gives none above 65,535: a free value there
(log 53). -/
def slotRecorded (slot : Nat) : BitVec 16 := if slot < 65536 then BitVec.ofNat 16 slot else Config.highSlot slot

/-- A frame completion of a camera (R105). -/
def frameCompletion (camera : Fin 8) (slot : Nat) (s : State) : State :=
  let x := s.label.cameras[camera]
  let x' : CameraState :=
    { completions := x.completions + 1, completed := true, lastSlot := slotRecorded slot }
  s.setLabel { s.label with cameras := s.label.cameras.set camera x' }

/-! ## Opening, closing and marks (R108, R109, R113-R117) -/

/-- A clip opened on a camera at a boundary, in the record given (R108). -/
def openClip (i : Fin 32) (camera : Fin 8) (m : Capture) (split : Option Count16) (b : VideoBoundary)
    (s : State) : State :=
  let x := s.label
  let clip : Clip :=
    { id := x.nextId
      camera := camera
      inTimecode := b.timecode
      inVideo := b.count
      inAudio := m.audioCount
      closing := none
      recorded := 0
      dropped := 0
      good := false
      unlocked := b.state != .locked
      overwritten := m.overwritten
      peak := (x.applied.buses[camera]).map fun _ => 0
      pictures := none
      pictureDrops := 0
      splitFrom := split
      parityBad := false }
  s.setLabel { x with
    nextId := if x.nextId = 0xFFFF then 1 else x.nextId + 1
    clips := x.clips.set i (some clip) }

/-- An OPEN record is closed (R109). -/
def closeClip (i : Fin 32) (m : Capture) (s : State) : State :=
  let x := s.label
  match x.clips[i] with
  | some c =>
    let closing : Closing :=
      { timecode := x.periodTimecode, videoCount := x.periodVideo, audioCount := m.audioCount,
        hold := x.applied.goodHold, ringDone := false, uplinkDone := false }
    let closed : Clip := { c with overwritten := c.overwritten || m.overwritten, closing := some closing }
    s.setLabel { x with order := x.order ++ [i], clips := x.clips.set i (some closed) }
  | none => s

/-- A stray mark is counted (R113). -/
def strayMark (s : State) : State := s.setLabel { s.label with stray := s.label.stray + 1 }

/-- A clip is opened when a FREE record exists, and refused otherwise (R114, R117). -/
def tryOpen (camera : Fin 8) (m : Capture) (split : Option Count16) (b : VideoBoundary) (s : State) : State :=
  match s.label.freeRecord with
  | some i => openClip i camera m split b s
  | none => offer 0 (.clipRefused (1#8 <<< camera.val) 1) s

/-- A SPLIT mark: close what is open, then open (R117). -/
def markSplit (camera : Fin 8) (m : Capture) (b : VideoBoundary) (s : State) : State :=
  match s.label.openOf camera with
  | some i => tryOpen camera m ((s.label.clips[i]).map (·.id)) b (closeClip i m s)
  | none => tryOpen camera m none b s

/-- An IN mark (R114). -/
def markIn (camera : Fin 8) (m : Capture) (b : VideoBoundary) (s : State) : State :=
  match s.label.openOf camera with
  | some _ => markSplit camera m b s
  | none => tryOpen camera m none b s

/-- An OUT mark (R115). -/
def markOut (camera : Fin 8) (m : Capture) (s : State) : State :=
  match s.label.openOf camera with
  | some i => closeClip i m s
  | none => strayMark s

/-- The CLOSED record of a camera that joined the close-order list last (R116). -/
def Label.lastClosed (x : Label) (camera : Fin 8) : Option (Fin 32) :=
  x.order.reverse.find? fun i =>
    match x.clips[i] with
    | some c => c.camera == camera
    | none => false

/-- A GOOD mark (R116). -/
def markGood (camera : Fin 8) (s : State) : State :=
  match s.label.openOf camera with
  | some i => setClip i ((s.label.clips[i]).map fun c => { c with good := true }) s
  | none =>
    match s.label.lastClosed camera with
    | some i =>
      match s.label.clips[i] with
      | some c => if c.closedWith (fun k => 0 < k.hold) then setClip i (some { c with good := true }) s else strayMark s
      | none => strayMark s
    | none => strayMark s

/-- A mark is applied to its camera by its function (R113). -/
def applyMark (f : MarkFunction) (camera : Fin 8) (m : Capture) (b : VideoBoundary) (s : State) : State :=
  match f with
  | .none => s
  | .markIn => markIn camera m b s
  | .markOut => markOut camera m s
  | .toggle =>
    match s.label.openOf camera with
    | some _ => markOut camera m s
    | none => markIn camera m b s
  | .good => markGood camera s
  | .split => markSplit camera m b s

/-- The function and camera of a mark: slots 0 to 5 take them from the applied LABELS settings, slot 6 holds
its own (R59, R60). -/
def Label.markOf (x : Label) (i : Fin 7) (m : Capture) : Option (MarkFunction × Fin 8) :=
  match toFin 6 i.val with
  | some input => some ((x.applied.inputs[input]).function, (x.applied.inputs[input]).camera)
  | none => m.mark

/-- A capture slot is taken: it becomes EMPTY and its mark is applied before the next is taken (R61, R113).
A timing unit that has stopped hands out no slot: its slots keep what they held (R62, log 11). -/
def takeSlot (b : VideoBoundary) (s : State) (i : Fin 7) : State :=
  match s.timing.slots[i], s.timing.stopped with
  | some m, false =>
    let s' := { s with timing := { s.timing with slots := s.timing.slots.set i none } }
    match s.label.markOf i m with
    | some (f, camera) => applyMark f camera m b s'
    | none => s'
  | _, _ => s

/-! ## The video boundary (R110-R112) -/

/-- Step 1 on one record: an OPEN clip counts the frame, a CLOSED record's hold goes down (R111, R121). -/
def countClip (cameras : Vector CameraState 8) (c : Clip) : Clip :=
  match c.closing with
  | none =>
    if (cameras[c.camera]).completed then { c with recorded := c.recorded + 1 }
    else { c with dropped := c.dropped + 1 }
  | some k => { c with closing := some { k with hold := k.hold - 1 } }

/-- Step 1 of R110. Whether it reads, so checks, a CLOSED record whose hold is already 0, the manual does not say:
DESIGN CHOICE, it checks every record (R126, log 39). -/
def countFrames (s : State) : State :=
  let s := readClips (fun _ => true) s
  let s := updateClips (fun _ => true) (countClip s.label.cameras) s
  s.setLabel { s.label with cameras := mapTable (fun x => { x with completed := false }) s.label.cameras }

/-- Step 2 of R110 (R112). -/
def noteUnlocked (b : VideoBoundary) (s : State) : State :=
  if b.state = .locked then s
  else updateClips Clip.isOpen (fun c => { c with unlocked := true }) s

/-- Step 3 of R110: a staged LABELS group takes effect and the edge selections go to the timing unit
(R104). One that has stopped takes none (R62). -/
def applyLabels (s : State) : State :=
  match s.label.staged with
  | none => s
  | some g =>
    { s with
      label := { s.label with applied := g, staged := none }
      timing :=
        if s.timing.stopped then s.timing
        else { s.timing with selections := mapTable (·.edge) g.inputs } }

/-- The label unit's reaction to a video boundary (R110), with the posting that becomes possible by it. -/
def labelBoundary (b : VideoBoundary) (s : State) : State :=
  let s := postSettle (countFrames s)
  let s := applyLabels (noteUnlocked b s)
  let s := (List.finRange 7).foldl (takeSlot b) s
  postSettle (s.setLabel { s.label with periodTimecode := b.timecode, periodVideo := b.count })

/-- LABEL_VIDEO_BOUNDARY (R110): the oldest boundary handed to the label unit is taken. One that has
stopped takes none (R127). -/
def execLabelVideoBoundary (upsets : List Upset) (s : State) : Host.Outcome State Fault Refusal :=
  let s := strikes upsets s
  match s.label.boundaries with
  | [] => .next s
  | b :: rest =>
    let s := s.setLabel { s.label with boundaries := rest }
    if s.label.stopped then .next s else .next (labelBoundary b s)

/-! ## CLIP_MARK (R118) -/

/-- CLIP_MARK (R118): functions 1 to 5 fill capture slot 6. A label unit that has stopped takes no
command (R127). -/
def execClipMark (s : State) : Host.Outcome State Fault Refusal :=
  match s.command.handed with
  | some (.clipMark camera p1) =>
    if s.label.stopped then .next s
    else
      match MarkFunction.ofCode (p1.toNat % 256) with
      | none => .next (complete .invalid 1 s)
      | some .none => .next (complete .invalid 1 s)
      | some f => .next (complete .accepted 0 (fillSlot 6 (some (f, camera)) s))
  | _ => .next s

/-! ## Peaks and pictures (R119, R120) -/

/-- The clip is OPEN and its camera's label bus is this bus (R119). -/
def Clip.onBus (applied : LabelSettings) (bus : Fin 16) (c : Clip) : Bool :=
  c.isOpen && applied.buses[c.camera] == some bus

/-- A bus frame peak is offered (R119). Whether that reads, so checks, an OPEN clip without an audio peak, the manual
does not say: DESIGN CHOICE, it does (R126, log 39). -/
def peakOffer (bus : Fin 16) (peak : Nat) (s : State) : State :=
  if s.label.stopped then s
  else
    let s := readClips (Clip.onBus s.label.applied bus) s
    updateClips (Clip.onBus s.label.applied bus) (fun c => { c with peak := c.peak.map (max · peak) }) s

/-- The clip is OPEN on a camera. -/
def Clip.openOn (camera : Fin 8) (c : Clip) : Bool := c.isOpen && c.camera == camera

/-- A picture is admitted for a camera (R120). -/
def pictureAdmitted (n : Count32) (camera : Option (Fin 8)) (s : State) : State :=
  match camera with
  | none => s
  | some k =>
    let s := readClips (Clip.openOn k) s
    updateClips (Clip.openOn k) (fun c => { c with pictures := match c.pictures with
      | none => some (n, n)
      | some (first, _) => some (first, n) }) s

/-- A picture is dropped for a camera (R120). -/
def pictureDropped (camera : Option (Fin 8)) (s : State) : State :=
  match camera with
  | none => s
  | some k =>
    let s := readClips (Clip.openOn k) s
    updateClips (Clip.openOn k) (fun c => { c with pictureDrops := c.pictureDrops + 1 }) s

/-! ## The label ring (R122, R123, R125) -/

/-- label written − consumed, modulo 65,536 (R122). -/
def Label.unread (x : Label) : Nat := (x.written - x.consumed).toNat

/-- The write of a record at the write slot (R122). -/
def State.labelRequest (s : State) (c : Clip) : MemRequest :=
  { addr := beatOf (((s.ownedWindow .label).map (·.first)).getD 0 + 64 * s.label.slot)
    burst := fullWrite c.bytes }

/-- The ring's head record dropped when it has a parity error, with the uplink decision that this opens, and
whether another may follow (R124, R126). -/
def ringDropBad (s : State) : State × Bool :=
  match s.label.ringHead with
  | none => (s, false)
  | some i =>
    match s.label.clips[i] with
    | some c => if c.parityBad then (uplinkSettle (dropBadClip i s), true) else (s, false)
    | none => (s, false)

/-- The label unit may present a label write (R122). -/
def State.mayPostLabel (s : State) : Bool :=
  s.isNormal && !s.label.stopped && (s.ownedWindow .label).isSome && s.label.inFlight.isNone &&
    s.label.unread < s.labelRing

/-- The released head record's write is presented (R122). -/
def presentLabel (s : State) : State :=
  match s.label.ringHead with
  | none => s
  | some i =>
    match s.label.clips[i] with
    | none => s
    | some c =>
      if c.released then
        makeRequest labelQueue { purpose := .labelWrite false, fixed := some (s.labelRequest c) }
          (s.setLabel { s.label with inFlight := some (some i) })
      else s

/-- LABEL_POST (R122, R126): nothing is presented while the conditions of R122 do not hold. -/
def execLabelPost (upsets : List Upset) (s : State) : Host.Outcome State Fault Refusal :=
  let s := strikes upsets s
  if s.mayPostLabel then .next (presentLabel (settle ringDropBad 32 s)) else .next s

/-- The label write is no longer in flight: its response has returned or it was cancelled (R122, R125). -/
def labelLanded (s : State) : State := postSettle (s.setLabel { s.label with inFlight := none })

/-- Ring done is set on the record of the write in flight, unless that record is gone; one found with a parity
error is dropped instead (R122, R126). -/
def ringDone (s : State) : State :=
  match s.label.inFlight with
  | some (some i) =>
    if (s.label.clips[i]).any Clip.parityBad then dropBadClip i s
    else markPosted i (fun k => { k with ringDone := true }) s
  | some none => s
  | none => s

/-- The response to a label write (R122, R125, R126). One of an old window counts as cancelled. Where the LABEL window
went and another came while it was out, R125's two clauses compete: DESIGN CHOICE, ring done stays clear and the record
is presented again (log 52). -/
def labelReturned (i : Issued) (r : Response) (s : State) : State :=
  if i.stale then labelLanded s
  else if r.ok then
    let s := ringDone s
    labelLanded (s.setLabel { s.label with
      written := s.label.written + 1
      slot := if s.label.slot + 1 < s.labelRing then s.label.slot + 1 else 0 })
  else if i.purpose = .labelWrite false ∧ s.label.inFlight ≠ some none then
    makeRequest labelQueue { purpose := .labelWrite true, fixed := some i.request } s
  else labelLanded (ringDone s)

/-- The purpose of LABEL_WRITE_RETURN. -/
def Purpose.isLabelWrite : Purpose → Bool
  | .labelWrite _ => true
  | _ => false

/-- LABEL_WRITE_RETURN (R122, R125). -/
def execLabelWriteReturn (response : Response) (s : State) : Host.Outcome State Fault Refusal :=
  internalReturn Purpose.isLabelWrite labelReturned response s

/-- The limit of R123: R_L, less 1 while a label write is in flight, and 0 with no LABEL window. -/
def State.labelLimit (s : State) : Nat := s.labelRing - bit s.label.inFlight.isSome

/-- The clamp of R123: a label consumed count value against the label written count. -/
def clampLabelConsumed (written value : Count16) (limit : Nat) : Count16 :=
  let d := (written - value).toNat
  if d ≤ limit then value
  else if d < 32768 then written - BitVec.ofNat 16 limit
  else written

/-- LABEL_CONSUMED_COUNT_WRITE (R123): the oldest value handed to the label unit is taken. One that has
stopped takes none (R127). -/
def execLabelConsumedCountWrite (s : State) : Host.Outcome State Fault Refusal :=
  match s.label.inbox with
  | [] => .next s
  | v :: rest =>
    let s := s.setLabel { s.label with inbox := rest }
    if s.label.stopped then .next s
    else .next (s.setLabel { s.label with consumed := clampLabelConsumed s.label.written v s.labelLimit })

end Sys2Proof.Machine
end

