-- ==== Sys2Proof/Machine/Mix.lean ====
section
/-! DEFINITION. The mixer: samples, frames, routes, mix arithmetic, bus output and meters (Chapters 4 and
5). -/

namespace Sys2Proof.Machine

/-- The state with the mixer changed. -/
def State.setMixer (s : State) (x : Mixer) : State := { s with mixer := x }

/-- A set of `n` flags from a test of each member. -/
def flagSet (n : Nat) (member : Fin n → Bool) : BitVec n := BitVec.ofFnLE member

/-! ## Gains and products (R87-R89) -/

/-- The gain of a route at sample index i (R87). -/
def Route.gainAt (r : Route) (i : Fin 48) : Int :=
  (r.g0.toNat : Int) + Int.tdiv (((r.g1.toNat : Int) - r.g0.toNat) * (i.val + 1)) 48

/-- The product a sample gives to a route at index i (R88). -/
def Route.product (r : Route) (i : Fin 48) (x : Sample) : Int :=
  let p := x.toInt * r.gainAt i
  if r.record.invert then -p else p

/-- An open frame's accumulator with its row. -/
def MixFrame.setAccumulator (f : MixFrame) (bus : Fin 16) (i : Fin 48) (a : Accumulator) : MixFrame :=
  { f with rows := f.rows.set bus (f.rows[bus].set i a) }

/-- A product is added to the accumulator of its route's bus; one that a parity error is found in marks the
row bad and takes no product (R89, R92). -/
def MixFrame.addProduct (i : Fin 48) (x : Sample) (f : MixFrame) (r : Route) : MixFrame :=
  let bus := r.record.bus
  let a := f.rows[bus][i]
  if a.parityBad then { f with rowBad := f.rowBad.set bus true }
  else f.setAccumulator bus i { a with value := BitVec.ofInt 48 (a.value.toInt + r.product i x) }

/-- A sample of a source accumulated into an open frame, and its arrival flag set (R67). -/
def MixFrame.addSample (f : MixFrame) (source : Fin 64) (i : Fin 48) (x : Sample) : MixFrame :=
  let f := (f.routes.filter fun r => r.record.source == source).foldl (MixFrame.addProduct i x) f
  { f with arrivals := f.arrivals.set source (f.arrivals[source] ||| (1#48 <<< i.val)) }

/-! ## Taking samples (R65-R68) -/

/-- Where a ring slot stands against the frame number (R65). -/
inductive SlotPlace where
  | current
  | next
  | late
  | outOfWindow
  deriving DecidableEq, Repr

/-- The place of a slot for frame number f (R65). -/
def slotPlace (f : Count32) (slot : Nat) : SlotPlace :=
  if slot = f.toNat % 8 then .current
  else if slot = (f.toNat + 1) % 8 then .next
  else if slot = (f.toNat + 7) % 8 then .late
  else .outOfWindow

/-- One of the two open frames. -/
def Mixer.openFrame (m : Mixer) (isNext : Bool) : MixFrame := if isNext then m.next else m.current

/-- The mixer with one of the two open frames changed. -/
def Mixer.setFrame (m : Mixer) (isNext : Bool) (f : MixFrame) : Mixer :=
  if isNext then { m with next := f } else { m with current := f }

/-- A sample in an open frame (R67). -/
def Mixer.sampleIn (isNext : Bool) (source : Fin 64) (i : Fin 48) (x : Sample) (m : Mixer) : Mixer :=
  let f := m.openFrame isNext
  let r := m.sources[source]
  if f.arrivals[source].getLsbD i.val then
    { m with sources := m.sources.set source { r with rewrites := r.rewrites + 1 } }
  else
    { m.setFrame isNext (f.addSample source i x) with
      sources := m.sources.set source { r with active := true, idleRun := 0 } }

/-- A sample handled by the slot it lies in (R66-R68). -/
def Mixer.takeSample (source : Fin 64) (slot : Nat) (i : Fin 48) (x : Sample) (m : Mixer) : Mixer :=
  let r := m.sources[source]
  match slotPlace m.frame slot with
  | .current => m.sampleIn false source i x
  | .next => m.sampleIn true source i x
  | .late => { m with sources := m.sources.set source { r with late := r.late + 1 } }
  | .outOfWindow => { m with sources := m.sources.set source { r with outOfWindow := r.outOfWindow + 1 } }

/-- The container in the low or high half of a beat is a sample when its four enables are set (R66). -/
def Mixer.takeContainer (source : Fin 64) (slot index : Nat) (b : Beat) (high : Bool) (m : Mixer) : Mixer :=
  let h := bit high
  match toFin 48 (index + h) with
  | some i =>
    if b.enables.toNat / 16 ^ h % 16 = 15 then
      m.takeSample source slot i (BitVec.ofNat 24 (b.data.toNat / 2 ^ (32 * h)))
    else m
  | none => m

/-- A tapped beat of an AUDIO_IN window at a byte offset from its base (R5, R66). -/
def Mixer.takeBeat (first offset : Nat) (b : Beat) (m : Mixer) : Mixer :=
  let inSlot := offset % 256
  match toFin 64 (first + offset / 2048) with
  | some source =>
    if inSlot < 192 then
      let slot := offset % 2048 / 256
      (m.takeContainer source slot (inSlot / 4) b false).takeContainer source slot (inSlot / 4) b true
    else m
  | none => m

/-- The taps of one write into an AUDIO_IN window, all against one frame number (R70). -/
def Mixer.takeBurst (first : Nat) : Nat → List Beat → Mixer → Mixer
  | _, [], m => m
  | offset, b :: bs, m => Mixer.takeBurst first (offset + 8) bs (m.takeBeat first offset b)

/-! ## Return frames and LOS (R82, R84) -/

/-- The source a line's return channel feeds (4.1). -/
def returnSource (l : LineId) (c : Fin 2) : Fin 64 := ⟨58 + 2 * l.val + c.val, by omega⟩

/-- One channel of a RETURN frame is taken for its source (R82). -/
def Mixer.takeChannel (frame : List Byte) (l : LineId) (m : Mixer) (c : Fin 2) : Mixer :=
  let x := returnSource l c
  let r := m.sources[x]
  if m.next.arrivals[x] = 0 then
    { m with
      next := (List.finRange 48).foldl (fun f i => f.addSample x i (returnSample frame c i)) m.next
      sources := m.sources.set x { r with active := true, idleRun := 0 } }
  else { m with sources := m.sources.set x { r with rewrites := r.rewrites + 48 } }

/-- A delivered RETURN frame (R82). A mixer that has stopped takes none (R85). -/
def deliverReturn (frame : List Byte) (l : LineId) (s : State) : State :=
  if s.mixer.stopped then s
  else s.setMixer ((List.finRange 2).foldl (Mixer.takeChannel frame l) s.mixer)

/-- A line's receiver declares LOS (R84). A mixer that has stopped takes no declaration (R85). -/
def mixerLos (l : LineId) (s : State) : State :=
  if s.mixer.stopped then s
  else s.setMixer ((List.finRange 2).foldl (fun m c =>
    let x := returnSource l c
    { m with sources := m.sources.set x { m.sources[x] with active := false, idleRun := 8 } }) s.mixer)

/-! ## Gains (R74) -/

/-- GAIN_FIELD_WRITE (R74): the oldest value handed to the mixer is taken. One that has stopped takes none
(R85). -/
def execGainFieldWrite (s : State) : Host.Outcome State Fault Refusal :=
  match s.mixer.gains with
  | [] => .next s
  | (r, g) :: rest =>
    let s := s.setMixer { s.mixer with gains := rest }
    if s.mixer.stopped then .next s
    else .next (s.setMixer { s.mixer with targets := s.mixer.targets.set r g })

/-! ## Close step 1: output samples (R90-R92) -/

/-- The accumulator over 16,384, to the nearest whole number with ties away from zero (R90). -/
def roundOutput (a : Int) : Int :=
  let r := ((a.natAbs + 8192) / 16384 : Nat)
  if a < 0 then -(r : Int) else r

/-- The output limited to the 24-bit range (R91). -/
def saturate (x : Int) : Int := max (-8388608) (min 8388607 x)

/-- The output sample of an accumulator (R90, R91). -/
def Accumulator.output (a : Accumulator) : Sample := BitVec.ofInt 24 (saturate (roundOutput a.value.toInt))

/-- The output of an accumulator is a saturated sample (R91). -/
def Accumulator.saturates (a : Accumulator) : Bool :=
  saturate (roundOutput a.value.toInt) != roundOutput a.value.toInt

/-- The row of a bus is bad at the close: marked bad, or with a parity error in it (R92). -/
def MixFrame.busBad (f : MixFrame) (b : Fin 16) : Bool :=
  f.rowBad[b] || f.rows[b].toList.any Accumulator.parityBad

/-- The 48 outputs of a bus at the close (R90, R92). -/
def MixFrame.busOutput (f : MixFrame) (b : Fin 16) : Vector Sample 48 :=
  if f.busBad b then Vector.replicate 48 0 else mapTable Accumulator.output f.rows[b]

/-- The outputs of the closed frame. -/
def MixFrame.outputs (f : MixFrame) : BusFrame := Vector.ofFn f.busOutput

/-- The saturated samples of a bus; a bad row has none (R91). -/
def MixFrame.saturated (f : MixFrame) (b : Fin 16) : Nat :=
  if f.busBad b then 0 else (f.rows[b].toList.filter Accumulator.saturates).length

/-- The INTERNAL_PARITY faults of the close, one for each bad bus (R92, R200). The manual gives no order for
several bad buses: DESIGN CHOICE, bus 0 to 15, so that the highest stands as the latest location (log 38). -/
def parityFaults (f : MixFrame) (s : State) : State :=
  (List.finRange 16).foldl (fun s b =>
    if f.busBad b then raiseFault .internalParity (.location 1 (BitVec.ofNat 8 b.val)) s else s) s

/-! ## Close steps 2 to 5 (R72, R73, R93, R94) -/

/-- The frame peak of a bus (R94). -/
def framePeak (samples : Vector Sample 48) : Nat :=
  samples.toList.foldl (fun m x => max m x.toInt.natAbs) 0

/-- The meter after a close (R94). -/
def meterAfter (meter peak : Nat) : Nat := max peak (meter - meter / 32)

/-- Close step 2 (R94). -/
def updateMeters (out : BusFrame) (s : State) : State :=
  s.setMixer { s.mixer with meters := Vector.ofFn fun b => meterAfter s.mixer.meters[b] (framePeak out[b]) }

/-- Close step 3 (R93). -/
def saturationEvent (f : MixFrame) (s : State) : State :=
  let n := ((List.finRange 16).map f.saturated).sum
  if n = 0 then s
  else offer 0 (.busSaturation (flagSet 16 fun b => f.saturated b != 0) n) s

/-- The underrun set of the closing frame (R73). -/
def underrunSet (m : Mixer) (f : MixFrame) : BitVec 64 :=
  flagSet 64 fun x => m.sources[x].active && (f.routes.any fun r => r.record.source == x) &&
    f.arrivals[x] != BitVec.allOnes 48

/-- Close step 4 (R73). -/
def underrunEvent (f : MixFrame) (s : State) : State :=
  let set := underrunSet s.mixer f
  if set = 0 then s else offer 0 (.audioUnderrun set) s

/-- Close step 5 for one source (R72). -/
def Source.judge (x : Source) (arrivals : BitVec 48) : Source :=
  if arrivals != 0 then { x with idleRun := 0 }
  else if Config.idleLimit ≤ x.idleRun + 1 then { x with idleRun := Config.idleLimit, active := false }
  else { x with idleRun := x.idleRun + 1 }

/-- Close step 5 (R72). -/
def judgeSources (f : MixFrame) (s : State) : State :=
  s.setMixer { s.mixer with sources := Vector.ofFn fun x => (s.mixer.sources[x]).judge f.arrivals[x] }

/-! ## Close steps 6 to 8 (R95-R99) -/

/-- The 32 writes of an entry in the order R98 gives. -/
def busWrites (frame : Count32) : List Made :=
  (List.finRange 32).map fun k => { purpose := .busWrite frame k, fixed := none }

/-- Close step 6 (R97, R98). -/
def queueOutput (frame : Count32) (out : BusFrame) (s : State) : State :=
  match s.ownedWindow .busOut with
  | none => s
  | some w =>
    if s.mixer.busQueue.length < 2 then
      makeRequests mixerQueue (busWrites frame)
        (s.setMixer { s.mixer with busQueue := s.mixer.busQueue ++
          [{ frame := frame, samples := out, total := 32, presented := 0, completed := 0 }] })
    else
      raiseFault .outputLate (.address (BitVec.ofNat 36 (w.first + 256 * (frame.toNat % 8)))) s

/-- A line takes the mixer's notice that a frame has closed (R162). A line that has stopped takes none
(R175). -/
def Line.closeNotice (x : Line) : Line :=
  if x.function = .active ∧ x.applied.buses ≠ [] ∧ x.stopped = false then { x with audioDue := true } else x

/-- Close step 7 (R95). -/
def holdFrame (frame : Count32) (out : BusFrame) (s : State) : State :=
  { s with
    mixer := { s.mixer with held := mapTable (fun v => { frame := frame, samples := v }) out }
    lines := mapTable Line.closeNotice s.lines }

/-- Close step 8 (R96). The manual gives no order for the 16 offers: DESIGN CHOICE, bus 0 to 15 (log 39). -/
def offerPeaks (out : BusFrame) (s : State) : State :=
  (List.finRange 16).foldl (fun s b => peakOffer b (framePeak out[b]) s) s

/-- The eight close steps of R80 step 1. -/
def closeFrame (s : State) : State :=
  let f := s.mixer.current
  let frame := s.mixer.frame
  let out := f.outputs
  let s := updateMeters out (parityFaults f s)
  let s := judgeSources f (underrunEvent f (saturationEvent f s))
  postSettle (offerPeaks out (holdFrame frame out (queueOutput frame out s)))

/-! ## Opening a frame (R76-R81) -/

/-- A route of a new frame latches its gains: g1 from the target of its index, g0 from the g1 of the route
with its bus and source in the frame opened just before (R78). -/
def latchRoute (targets : Vector (BitVec 16) 256) (before : List Route) (r : RouteRecord) : Route :=
  { record := r
    g0 := ((before.find? fun q => q.record.bus == r.bus && q.record.source == r.source).map (·.g1)).getD 0
    g1 := targets[r.index] }

/-- The new NEXT frame (R81). -/
def newFrame (applied : List RouteRecord) (targets : Vector (BitVec 16) 256) (before : List Route) : MixFrame :=
  { MixFrame.empty with routes := applied.map (latchRoute targets before) }

/-- Steps 2 to 4 of R80. -/
def Mixer.advance (m : Mixer) : Mixer :=
  let applied := m.staged.getD m.applied
  { m with
    frame := m.frame + 1
    current := m.next
    applied := applied
    staged := none
    next := newFrame applied m.targets m.next.routes }

/-- The mixer's reaction to an audio boundary (R80). -/
def mixerBoundary (s : State) : State :=
  let s := closeFrame s
  s.setMixer s.mixer.advance

/-- MIXER_AUDIO_BOUNDARY (R80): the oldest boundary handed to the mixer is taken. One that has stopped
takes none (R85). -/
def execMixerAudioBoundary (upsets : List Upset) (s : State) : Host.Outcome State Fault Refusal :=
  let s := strikes upsets s
  match s.mixer.boundaries with
  | [] => .next s
  | _ :: rest =>
    let s := s.setMixer { s.mixer with boundaries := rest }
    if s.mixer.stopped then .next s else .next (mixerBoundary s)

/-! ## Bus output writes (R99, R100) -/

/-- All the writes an entry is to make have been presented and have completed (R99). -/
def BusEntry.finished (e : BusEntry) : Bool := e.total ≤ e.presented && e.presented ≤ e.completed

/-- A bus output write has completed, OK, ERROR or cancelled (R99). -/
def busWriteDone (frame : Count32) (s : State) : State :=
  let q := s.mixer.busQueue.map fun e => if e.frame == frame then { e with completed := e.completed + 1 } else e
  s.setMixer { s.mixer with busQueue := q.filter fun e => !e.finished }

/-- The response to a bus output write (R99). -/
def busReturned (i : Issued) (_ : Response) (s : State) : State :=
  match i.purpose with
  | .busWrite frame _ => busWriteDone frame s
  | _ => s

/-- The purpose of BUS_OUT_WRITE_RETURN. -/
def Purpose.isBusWrite : Purpose → Bool
  | .busWrite _ _ => true
  | _ => false

/-- BUS_OUT_WRITE_RETURN (R99). -/
def execBusOutWriteReturn (response : Response) (s : State) : Host.Outcome State Fault Refusal :=
  internalReturn Purpose.isBusWrite busReturned response s

/-- A new table without a BUS_OUT window drops every write not yet presented (R100). -/
def dropBusWrites (s : State) : State :=
  let x := s.path.queues[mixerQueue]
  let s := s.setQueue mixerQueue { x with later := [] }
  let q := s.mixer.busQueue.map fun e => { e with total := e.presented }
  s.setMixer { s.mixer with busQueue := q.filter fun e => !e.finished }

end Sys2Proof.Machine
end

