-- ==== Sys2Proof/Machine/Streams.lean ====
section
/-! DEFINITION. The stream governor: admission, overrun, claims, hints and flushes (Chapter 7). -/

namespace Sys2Proof.Machine

/-! ## Skip notices (R133) -/

/-- A notice widened to cover a run of picture numbers: of two numbers 2^31 apart, the notice's own is the
earlier (R133). -/
def Notice.widen (x : Notice) (first last : Count32) (isPartial : Bool) : Notice :=
  { first := if (x.first - first).toNat < 2 ^ 31 then first else x.first
    last := if (last - x.last).toNat ≤ 2 ^ 31 then last else x.last
    isPartial := x.isPartial || isPartial }

/-- A notice added to a queue: at the tail while fewer than 4 are held, else into the newest (R133). -/
def addNotice (first last : Count32) (isPartial : Bool) (ns : List Notice) : List Notice :=
  if ns.length < Config.noticePlaces then ns ++ [{ first := first, last := last, isPartial := isPartial }]
  else
    match ns.reverse with
    | [] => []
    | newest :: older => older.reverse ++ [newest.widen first last isPartial]

/-! ## The picture queue (R134) -/

/-- CORRUPT entries at the head leave while no claim is held (R134). -/
def Stream.dropCorrupt (x : Stream) : Stream :=
  if x.claim.isSome then x
  else { x with pictures := x.pictures.dropWhile fun p => p.state == .corrupt }

/-- The applied capacity, 0 without applied settings (R131). -/
def Stream.capacity (x : Stream) : Nat := (x.applied.map (·.capacity)).getD 0

/-- The camera of the applied settings (R120). -/
def Stream.camera (x : Stream) : Option (Fin 8) :=
  match x.applied with
  | some g => g.camera
  | none => none

/-- An entry whose bytes are still owed: QUEUED or SENDING (R134). -/
def Picture.owed (p : Picture) : Bool := p.state != .corrupt

/-- Some of an entry's bytes have been drained (R137, R146). -/
def Picture.begun (p : Picture) : Bool := p.unsent < p.length

/-! ## Markers, admission and drop (R130-R132) -/

/-- A valid marker of picture n is admitted when the queue has a place and the budget holds it (R131). -/
def Stream.fits (x : Stream) (length : Nat) : Bool :=
  x.pictures.length < Config.picturePlaces && x.fill + length ≤ x.capacity

/-- The admission of a picture (R131). -/
def admitPicture (n : Fin 4) (ring : Nat) (m : Marker) (s : State) : State :=
  let x := s.stream n
  let entry : Picture :=
    { number := x.counter
      start := (m.offset + ring - m.length) % ring
      length := m.length
      key := m.kind == 1
      timecode := s.timing.timecode
      unsent := m.length
      state := .queued }
  pictureAdmitted x.counter x.camera (s.setStream n
    { x with
      pictures := x.pictures ++ [entry]
      fill := x.fill + m.length
      keyRequest := if m.kind = 1 then false else x.keyRequest
      lastAdmitted := x.counter })

/-- The drop of a picture (R132). -/
def dropPicture (n : Fin 4) (s : State) : State :=
  let x := s.stream n
  let s := s.setStream n { x with keyRequest := true, notices := addNotice x.counter x.counter false x.notices }
  pictureDropped x.camera (offer n.val (.stream 1 0 0 x.counter) s)

/-- A marker is valid for a payload ring (R130). -/
def Marker.valid (m : Marker) (enables : BitVec 8) (ring : Nat) : Bool :=
  enables == allEnabled && m.length != 0 && m.length ≤ ring && m.kind ≤ 1 && m.offset < ring

/-- A marker write is taken (R130-R132). -/
def markerWrite (n : Fin 4) (ring : Nat) (addr : BeatAddr) (b : Beat) (s : State) : State :=
  let m := Marker.ofWord b.data
  if m.valid b.enables ring then
    let s := s.setStream n { s.stream n with counter := (s.stream n).counter + 1 }
    if (s.stream n).fits m.length then admitPicture n ring m s else dropPicture n s
  else raiseFault .badMarker (failAt addr) s

/-! ## Overrun (R137) -/

/-- The written bytes include one of the entry's unsent byte range (R137). -/
def Picture.overrunBy (p : Picture) (ring : Nat) (written : List Nat) : Bool :=
  let first := (p.start + (p.length - p.unsent)) % ring
  p.owed && written.any fun o => (o + ring - first) % ring < p.unsent

/-- The entry given up when it is overrun (R137, step 1). -/
def Picture.giveUp (ring : Nat) (written : List Nat) (p : Picture) : Picture :=
  if p.overrunBy ring written then { p with state := .corrupt } else p

/-- The claim is void once the head entry, which every claim that is not void is for, is overrun (R135,
R137, step 6). -/
def Claim.afterTap (c : Claim) (pictures : List Picture) (ring : Nat) (written : List Nat) : Claim :=
  match pictures with
  | p :: _ => if p.overrunBy ring written then { c with isVoid := true } else c
  | [] => c

/-- The unsent bytes of some entries. -/
def unsentBytes (ps : List Picture) : Nat := (ps.map (·.unsent)).sum

/-- The stream after a payload tap: the overrun entries are given up in queue order (R137), and CORRUPT
entries at the head leave while no claim is held (R134). -/
def Stream.tapped (x : Stream) (ring : Nat) (written : List Nat) : Stream :=
  let hit := x.pictures.filter fun p => p.overrunBy ring written
  let left : Stream :=
    { x with
      pictures := x.pictures.map (Picture.giveUp ring written)
      fill := x.fill - unsentBytes hit
      keyRequest := x.keyRequest || !hit.isEmpty
      notices := hit.foldl (fun ns p => addNotice p.number p.number p.begun ns) x.notices
      claim := x.claim.map fun c => c.afterTap x.pictures ring written }
  left.dropCorrupt

/-- A payload tap: the ring offsets written (R129, R137). Each overrun entry offers its STREAM event. -/
def payloadTap (n : Fin 4) (ring : Nat) (written : List Nat) (s : State) : State :=
  let x := s.stream n
  let hit := x.pictures.filter fun p => p.overrunBy ring written
  hit.foldl (fun s p => offer n.val (.stream 0 1 0 p.number) s) (s.setStream n (x.tapped ring written))

/-! ## Claims (R135, R136) -/

/-- What a granted claim hands the line (R135). -/
structure Grant where
  stream : Fin 4
  picture : Count32
  key : Bool
  ringOffset : Nat
  address : Nat
  length : Nat
  offset : Nat
  last : Bool
  deriving DecidableEq, Repr

/-- The governor's answer to a claim request for stream n under its window, and its stream record after it
(R135). -/
def Stream.grant (x : Stream) (n : Fin 4) (w : WindowEntry) : Option (Grant × Stream) :=
  match x.claim, x.pictures with
  | none, p :: rest =>
    if p.owed then
      let len := min Config.payloadBytes p.unsent
      let offset := p.length - p.unsent
      let ringOffset := (p.start + offset) % w.ringBytes
      some ({ stream := n, picture := p.number, key := p.key, ringOffset := ringOffset,
              address := w.first + ringOffset, length := len, offset := offset, last := len == p.unsent },
            { x with
              pictures := { p with state := .sending } :: rest
              claim := some { picture := p.number, length := len, isVoid := false } })
    else none
  | _, _ => none

/-- The end of a claim drains the head entry (R136). -/
def Stream.drain (x : Stream) (length : Nat) : Stream :=
  { x with
    fill := x.fill - length
    pictures := match x.pictures with
      | [] => []
      | p :: rest => if p.unsent ≤ length then rest else { p with unsent := p.unsent - length } :: rest }

/-- The end of a claim, and whether its data stands (R136). -/
def Stream.endClaim (x : Stream) (withData : Bool) : Stream × Bool :=
  match x.claim with
  | none => (x, false)
  | some c =>
    let stands := withData && !c.isVoid
    let x := if stands then x.drain c.length else x
    ({ x with claim := none }.dropCorrupt, stands)

/-- The end of a stream's claim. A governor that has stopped takes none (R149), and gives no answer: DESIGN CHOICE, the
line's data does not stand (log 48). -/
def endClaim (n : Fin 4) (withData : Bool) (s : State) : State × Bool :=
  if s.governor.stopped then (s, false)
  else
    let (x, stands) := (s.stream n).endClaim withData
    (s.setStream n x, stands)

/-! ## Hints and settings (R140, R141, R144, R145) -/

/-- The hint target at a fill (R141). -/
def StreamSettings.hintTarget (g : StreamSettings) (fill : Nat) : Int :=
  let raw : Int := g.base + Int.fdiv (64 * ((fill : Int) - g.target)) g.capacity
  max 0 (min 63 raw)

/-- The hint moved toward its target by at most the step (R141). -/
def StreamSettings.stepHint (g : StreamSettings) (fill hint : Nat) : Nat :=
  let change := g.hintTarget fill - hint
  (hint + max (-(g.step : Int)) (min (g.step : Int) change)).toNat

/-- A staged STREAM group may take effect at a fill (R144). -/
def takesEffect (g : Option StreamSettings) (fill : Nat) : Bool :=
  match g with
  | some g => fill ≤ g.capacity
  | none => fill == 0

/-- The governor's reaction to a video boundary for one stream (R140, R144, R145). -/
def Stream.atBoundary (x : Stream) : Stream :=
  let stepped := match x.applied with
    | some g => { x with hint := g.stepHint x.fill x.hint }
    | none => x
  match x.staged with
  | some g =>
    if takesEffect g x.fill then
      { x with applied := g, staged := none, hint := match g with | some g => g.base | none => x.hint }
    else stepped
  | none => stepped

/-- GOVERNOR_VIDEO_BOUNDARY (R140): the oldest boundary handed to the governor is taken. One that has
stopped takes none (R149). -/
def execGovernorVideoBoundary (s : State) : Host.Outcome State Fault Refusal :=
  match s.governor.boundaries with
  | [] => .next s
  | _ :: rest =>
    let s := { s with governor := { s.governor with boundaries := rest } }
    if s.governor.stopped then .next s
    else .next { s with governor := { s.governor with streams := mapTable Stream.atBoundary s.governor.streams } }

/-! ## Flushes (R146, R147) -/

/-- Steps 1 to 4 of R146: the notice for the discarded pictures, the emptied queue, the void claim and the
key request. -/
def Stream.flush (x : Stream) : Stream :=
  let owed := x.pictures.filter Picture.owed
  { x with
    notices := match owed with
      | [] => x.notices
      | p :: _ => addNotice p.number ((owed.getLast?).getD p).number (owed.any Picture.begun) x.notices
    pictures := []
    fill := 0
    claim := x.claim.map fun c => { c with isVoid := true }
    keyRequest := true }

/-- The STREAM event of a flush, with the picture number counter (R146). -/
def flushEvent (n : Fin 4) (s : State) : State := offer n.val (.stream 0 0 1 (s.stream n).counter) s

/-- The STREAM event of a window change, whose latest picture number the manual leaves open (R147, log 22). -/
def changeEvent (n : Fin 4) (s : State) : State :=
  offer n.val (.stream 0 0 1 (Config.changedWindowPicture s.governor.changes))
    { s with governor := { s.governor with changes := s.governor.changes + 1 } }

/-- STREAM_FLUSH (R146). A governor that has stopped takes no command (R149). R146 gives NOT_OPERATIONAL no result
word: DEDUCED, 0 (log 43). -/
def execStreamFlush (s : State) : Host.Outcome State Fault Refusal :=
  match s.command.handed with
  | some (.streamFlush n) =>
    if s.governor.stopped then .next s
    else if (s.codedWindow n).isSome then
      let x := (s.stream n).flush
      let x := { x with hint := (x.applied.map (·.base)).getD x.hint }
      .next (complete .accepted 0 (flushEvent n (s.setStream n x)))
    else .next (complete .notOperational 0 s)
  | _ => .next s

/-- A new window table changes or removes the CODED window a stream had (R147). -/
def streamWindowChanged (n : Fin 4) (old new : Option WindowEntry) (s : State) : State :=
  match old, new with
  | none, _ => s
  | some _, none => changeEvent n (s.setStream n (s.stream n).flush)
  | some o, some w =>
    if o.base = w.base ∧ o.size = w.size then s else changeEvent n (s.setStream n (s.stream n).flush)

/-- A key request set by the receiver of the line that carries the stream (R139, R192). -/
def setKeyRequest (n : Fin 4) (s : State) : State :=
  if s.governor.stopped then s else s.setStream n { s.stream n with keyRequest := true }

end Sys2Proof.Machine
end

