-- ==== Sys2Proof/Machine/Symbols.lean ====
section
/-! DEFINITION. The line code: coder, receiver, frame sync and loopback (Chapter 9). -/

namespace Sys2Proof.Machine

/-! ## The output of a line (R156, R175) -/

/-- What the transmit pair carries (R156). -/
inductive Output where
  | noSignal
  | frame
  | hold
  | retransmission
  deriving DecidableEq, Repr

/-- The output of a line (R156), or in PASS-ONLY mode the hold signal (R175). R156 lists no output for a
running line without a frame or a pending start, which no rule leaves: it is no signal (log 30). -/
def Line.output (x : Line) : Output :=
  if x.applied.rate = .off then .noSignal
  else if x.stopped then .hold
  else if x.tx.isSome then .frame
  else if x.applied.loopback = .remote then .retransmission
  else
    match x.function with
    | .idle => .noSignal
    | .active => if x.startPending && x.holdBefore then .hold else .noSignal
    | .halting => .noSignal
    | .halted => .hold

/-- The coder, the pair and the loops after a change of the output: without a signal the bits taken and
not sent are dropped and the pair rests at zero level (R181); bits and symbols kept for a loopback go with
it (R194, R195). The polarity and the parity go on counting the marks dropped: DESIGN CHOICE (R181, R182, log 50). -/
def Line.settleOutput (x : Line) : Line :=
  let silent := x.output = .noSignal
  { x with
    coder := if silent then { x.coder with pending := 0, out := [] } else x.coder
    level := if silent then .space else x.level
    retransmit := if x.output = .retransmission then x.retransmit else []
    looped := if x.applied.loopback = .localLoop then x.looped else [] }

/-! ## The coder (R181-R184) -/

/-- The run length Z of a zero-run code, 0 for OFF (R182). -/
def ZeroRun.length : ZeroRun → Nat
  | .off => 0
  | .z3 => 3
  | .z4 => 4

/-- A one bit: the pending spaces and a mark of opposite polarity (R182). -/
def Coder.takeOne (c : Coder) : Coder :=
  { lastPositive := !c.lastPositive
    odd := !c.odd
    pending := 0
    out := c.out ++ List.replicate c.pending .space ++ [.mark (!c.lastPositive)] }

/-- The Z symbols that stand for Z zeros (R183). -/
def Coder.substitution (c : Coder) (z : Nat) : List Symbol :=
  if c.odd then List.replicate (z - 1) .space ++ [.mark c.lastPositive]
  else .mark (!c.lastPositive) :: List.replicate (z - 2) .space ++ [.mark (!c.lastPositive)]

/-- A zero bit: a space under OFF; under Z3 and Z4 one more pending, or the substitution of a run (R182, R183).
R182 has a code change meet no run in progress, but a retransmission in IDLE or HALTED can leave zeros pending:
DESIGN CHOICE, they stay pending, and those that the new code's run is too short for go out as spaces before it
(log 45). -/
def Coder.takeZero (code : ZeroRun) (c : Coder) : Coder :=
  if code = .off then { c with pending := 0, out := c.out ++ List.replicate (c.pending + 1) .space }
  else if c.pending + 1 < code.length then { c with pending := c.pending + 1 }
  else
    { lastPositive := if c.odd then c.lastPositive else !c.lastPositive
      odd := false
      pending := 0
      out := c.out ++ List.replicate (c.pending + 1 - code.length) .space ++ c.substitution code.length }

/-- The coder takes one bit (R182). -/
def Coder.take (code : ZeroRun) (c : Coder) (b : Bool) : Coder :=
  if b then c.takeOne else c.takeZero code

/-- After a change to a code with a shorter run, symbols wait that are more than Z behind: they leave first, so
that each bit taken from then on leaves Z symbol times behind (R182, log 17). -/
def Coder.late (code : ZeroRun) (c : Coder) : Bool := !c.out.isEmpty && code.length < c.pending + c.out.length

/-- The symbol that leaves in a symbol time, Z symbol times behind its bit, and the coder after it; the
pair is at zero level while nothing has reached the end of the delay (R182, log 17). -/
def Coder.emit (code : ZeroRun) (c : Coder) : Symbol × Coder :=
  if code.length < c.pending + c.out.length then
    match c.out with
    | x :: rest => (x, { c with out := rest })
    | [] => (.space, c)
  else (.space, c)

/-- Bit k of a frame in line order (R177). -/
def TxFrame.bitAt (f : TxFrame) (k : Nat) : Bool :=
  match f.bytes.drop (k / 8) with
  | b :: _ => b.getLsbD (7 - k % 8)
  | [] => false

/-- The next bit for the coder, and the line once the coder has taken it (R181): none while there is no
signal, while all the bits of a frame have been taken, or while no retransmitted bit has been decided. -/
def Line.nextBit (x : Line) : Option (Bool × Line) :=
  match x.output with
  | .noSignal => none
  | .hold => some (true, x)
  | .frame =>
    match x.tx with
    | some f =>
      if f.sent < Config.frameBits then some (f.bitAt f.sent, { x with tx := some { f with sent := f.sent + 1 } })
      else none
    | none => none
  | .retransmission =>
    match x.retransmit with
    | b :: rest => some (b, { x with retransmit := rest })
    | [] => none

/-- A symbol leaves for the pair, and under LOCAL for the line's own receiver, unless that has stopped (R182,
R194, R196). -/
def Line.emitSymbol (x : Line) (c : Coder) : Line :=
  let (symbol, coder) := c.emit x.applied.code
  { x with
    coder := coder
    level := symbol
    looped := if x.applied.loopback = .localLoop ∧ x.stopped = false then x.looped ++ [symbol] else x.looped }

/-- One symbol time of the transmitter (R181, R182): a symbol that is late leaves, or else the coder takes a
bit. -/
def Line.sendSymbol (x : Line) : Line :=
  match x.nextBit with
  | none => x
  | some (b, y) =>
    if x.coder.late x.applied.code then x.emitSymbol x.coder
    else y.emitSymbol (y.coder.take y.applied.code b)

/-- SYMBOL_SENT (R181, R182). The coder of a stopped line runs on the hold signal (R196). -/
def execSymbolSent (line : LineId) (s : State) : Host.Outcome State Fault Refusal :=
  .next (s.setLine line (s.line line).sendSymbol)

/-! ## The receiver: symbols to bits (R186, R187) -/

/-- The symbols a later violation can still reach: Z − 1, none under OFF (R186). -/
def ZeroRun.window (code : ZeroRun) : Nat := code.length - 1

/-- The last `n` of a list. -/
def lastOf {α : Type} (n : Nat) (xs : List α) : List α := xs.drop (xs.length - n)

/-- The symbols before a violation complete a valid substitution with it (R186). -/
def validSubstitution (code : ZeroRun) (before : List Undecided) : Bool :=
  code != .off && before.length == code.window &&
    match before with
    | [] => false
    | first :: others =>
      (first.symbol == .space || first.bit) && others.all fun u => u.symbol == .space

/-- The Z − 1 symbols received last, decided or not (R186, log 41). -/
def Receiver.before (code : ZeroRun) (r : Receiver) : List Undecided :=
  lastOf code.window (r.recent ++ r.undecided)

/-- The symbols as part of a completed substitution, all zeros (R186). -/
def asZeros (us : List Undecided) : List Undecided := us.map fun u => { u with bit := false }

/-- A symbol decodes (R186). -/
def Receiver.decode (code : ZeroRun) (r : Receiver) (x : Symbol) : Receiver :=
  match x with
  | .space => { r with
      undecided := r.undecided ++ [{ symbol := x, bit := false }]
      spaces := min (r.spaces + 1) Config.losSpaces }
  | .mark p =>
    let r := { r with spaces := 0 }
    if p = r.lastPositive then
      if validSubstitution code (r.before code) then
        { r with recent := asZeros r.recent, undecided := asZeros r.undecided ++ [{ symbol := x, bit := false }] }
      else
        { r with undecided := r.undecided ++ [{ symbol := x, bit := true }], violationsDue := r.violationsDue + 1 }
    else { r with lastPositive := p, undecided := r.undecided ++ [{ symbol := x, bit := true }] }

/-- The bits that no later violation can change any more, and the receiver without them (R186). -/
def Receiver.decide (code : ZeroRun) (r : Receiver) : List Bool × Receiver :=
  let n := r.undecided.length - code.window
  ((r.undecided.take n).map (·.bit),
    { r with recent := lastOf 3 (r.recent ++ r.undecided.take n), undecided := r.undecided.drop n })

/-- A declaration of LOS is due when the space count reaches 96 with LOS clear (R187). -/
def Receiver.noteSpaces (r : Receiver) : Receiver :=
  if r.spaces = Config.losSpaces ∧ r.los = false then { r with losDue := true } else r

/-! ## Frame sync: the search (R188) -/

/-- The sync word's bits in line order. -/
def syncBits : List Bool := lineBits (beBytes 2 Config.syncWord)

/-- The search of decided bits for the sync word: whether it matched, and the bits from the match on, or
the last ones that a later bit can still complete (R188). -/
def searchSync : List Bool → Bool × List Bool
  | [] => (false, [])
  | b :: rest =>
    if (b :: rest).take 16 = syncBits then (true, b :: rest)
    else if rest.length < 15 then (false, b :: rest)
    else searchSync rest

/-- The search begins at the first of these bits (R188, R189). -/
def Receiver.search (r : Receiver) (bits : List Bool) : Receiver :=
  let (found, bits) := searchSync bits
  { r with inFrame := found, bits := bits }

/-- A decided bit reaches frame sync (R188, R189). -/
def Receiver.pushBit (r : Receiver) (b : Bool) : Receiver :=
  if r.inFrame then { r with bits := r.bits ++ [b] } else r.search (r.bits ++ [b])

/-- HUNT with the held-good flag clear and the frame being taken dropped; the search goes on from the last
15 bits decided (R185, R187, log 19). -/
def Receiver.hunt (r : Receiver) : Receiver :=
  { r with
    sync := .hunt
    heldGood := false
    badFrames := 0
    inFrame := false
    bits := r.bits.drop (r.bits.length - 15) }

/-! ## Symbols into a line (R185, R194, R195) -/

/-- The receiver's bits are decided under the applied code and passed on (R186, R195, R197). -/
def Line.decideBits (x : Line) : Line :=
  let (bits, r) := x.receiver.decide x.applied.code
  { x with
    receiver := bits.foldl Receiver.pushBit r
    retransmit := if x.output = .retransmission then x.retransmit ++ bits else x.retransmit }

/-- The receiver takes one symbol (R185-R187). -/
def Line.receive (x : Line) (symbol : Symbol) : Line :=
  { x with receiver := (x.receiver.decode x.applied.code symbol).noteSpaces }.decideBits

/-- The symbol the receiver takes: from the pair, or under LOCAL from the line's own transmitter, which
gives spaces while the output is no signal (R194). None has been sent while the loop is empty. -/
def Line.inputSymbol (x : Line) (level : Symbol) : Option (Symbol × Line) :=
  if x.applied.loopback = .localLoop then
    match x.looped with
    | y :: rest => some (y, { x with looped := rest })
    | [] => if x.output = .noSignal then some (.space, x) else none
  else some (level, x)

/-- SYMBOL_RECEIVED (R185-R188, R194, R195). No symbol is taken with rate class OFF (R185) or after the
entry into PASS-ONLY mode (R196). -/
def execSymbolReceived (line : LineId) (level : Symbol) (s : State) : Host.Outcome State Fault Refusal :=
  let x := s.line line
  if x.applied.rate = .off ∨ x.stopped = true then .next s
  else
    match x.inputSymbol level with
    | some (symbol, x) => .next (s.setLine line (x.receive symbol))
    | none => .next s

/-! ## Offers to the measurement (R208) -/

/-- A line's offer to the measurement, counted while the state is ACTIVE (R208). -/
def measureOffer (l : LineId) (f : Totals → Totals) (s : State) : State :=
  if s.isNormal && s.fault.state == .active then
    { s with fault := { s.fault with totals := s.fault.totals.set l (f s.fault.totals[l]) } }
  else s

/-- CODE_VIOLATION (R186, R208): a code violation the receiver has decoded is offered to the measurement. -/
def execCodeViolation (line : LineId) (s : State) : Host.Outcome State Fault Refusal :=
  let x := s.line line
  if x.stopped = true ∨ x.receiver.violationsDue = 0 then .next s
  else .next (measureOffer line (fun t => { t with violations := t.violations + 1 })
    (s.setLine line { x with receiver := { x.receiver with violationsDue := x.receiver.violationsDue - 1 } }))

/-- A good frame received (R208). -/
def goodOffer (l : LineId) (s : State) : State :=
  measureOffer l (fun t => { t with goodFrames := t.goodFrames + 1 }) s

/-! ## LOS and sync changes (R187, R193) -/

/-- The state with a line's receiver changed. -/
def State.setReceiver (s : State) (l : LineId) (r : Receiver) : State :=
  s.setLine l { s.line l with receiver := r }

/-- The LOS state is given to the measurement (R187, R207). -/
def giveLos (l : LineId) (declared : Bool) (s : State) : State :=
  if s.isNormal then { s with fault := { s.fault with los := s.fault.los.set l declared } } else s

/-- A LINE_SIGNAL event when the LOS state or the sync state is another than before (R193). -/
def signalEvent (l : LineId) (before : Receiver) (s : State) : State :=
  let r := (s.line l).receiver
  if r.los = before.los ∧ r.sync = before.sync then s else offer l.val (.lineSignal r.los r.sync) s

/-- The receiver enters HUNT with LOS declared; the mixer and the measurement are told of a declaration
(R185, R187). -/
def declareLos (l : LineId) (s : State) : State :=
  let before := (s.line l).receiver
  let s := s.setReceiver l { before.hunt with los := true, losDue := false }
  signalEvent l before (if before.los then s else mixerLos l (giveLos l true s))

/-- LOS (R187): the declaration that the space count has made due. LOS already declared is not declared
again. -/
def execLos (line : LineId) (s : State) : Host.Outcome State Fault Refusal :=
  let x := s.line line
  if x.stopped = true ∨ x.receiver.losDue = false then .next s
  else if x.receiver.los then .next (s.setReceiver line { x.receiver with losDue := false })
  else .next (declareLos line s)

/-! ## Good frames (R188-R192) -/

/-- A good frame that its rule ignores, or of another kind (R190). -/
def ignoreFrame (l : LineId) (s : State) : State :=
  let r := (s.line l).receiver
  s.setReceiver l { r with ignored := r.ignored + 1 }

/-- A good frame is delivered (R190-R192). -/
def deliverFrame (l : LineId) (frame : List Byte) (s : State) : State :=
  let g := (s.line l).applied
  match frameKind frame, g.liveStream with
  | 8, _ =>
    if g.returnEnabled && framePayloadLength frame == 288 then deliverReturn frame l s else ignoreFrame l s
  | 9, some n => setKeyRequest n s
  | _, _ => ignoreFrame l s

/-- The bits of a whole frame have been decided (R188, R189). -/
def Receiver.frameTaken (r : Receiver) : Bool := r.inFrame && Config.frameBits ≤ r.bits.length

/-- The frame that has been taken. -/
def Receiver.frame (r : Receiver) : List Byte := bytesOfBits (r.bits.take Config.frameBits)

/-- The receiver goes on to the 4,224 bits that follow (R188, R189). -/
def Receiver.follow (r : Receiver) : Receiver := { r with inFrame := true, bits := r.bits.drop Config.frameBits }

/-- The outcome of a candidate frame (R188). -/
def judgeCandidate (l : LineId) (s : State) : State :=
  let before := (s.line l).receiver
  let frame := before.frame
  if goodFrame frame then
    if before.heldGood then
      let s := s.setReceiver l { before.follow with sync := .locked, badFrames := 0, heldGood := false }
      deliverFrame l frame (signalEvent l before (goodOffer l s))
    else
      let s := s.setReceiver l { before.follow with heldGood := true, los := false }
      let s := if before.los then giveLos l false s else s
      signalEvent l before (goodOffer l s)
  else s.setReceiver l ({ before with heldGood := false }.search (before.bits.drop 1))

/-- CANDIDATE_FRAME (R188): judged once its 4,224 bits have been decided in HUNT. -/
def execCandidateFrame (line : LineId) (upsets : List Upset) (s : State) : Host.Outcome State Fault Refusal :=
  let s := strikes upsets s
  let x := s.line line
  if x.stopped = false ∧ x.receiver.sync = .hunt ∧ x.receiver.frameTaken = true then .next (judgeCandidate line s)
  else .next s

/-- The outcome of a frame taken in LOCKED (R189). -/
def judgeLocked (l : LineId) (s : State) : State :=
  let before := (s.line l).receiver
  let frame := before.frame
  if goodFrame frame then
    deliverFrame l frame (goodOffer l (s.setReceiver l { before.follow with badFrames := 0 }))
  else
    let s := measureOffer l (fun t => { t with crcErrors := t.crcErrors + 1 }) s
    if before.badFrames + 1 < Config.badFrameLimit then
      s.setReceiver l { before.follow with badFrames := before.badFrames + 1 }
    else
      signalEvent l before (s.setReceiver l
        ({ before with sync := .hunt, heldGood := false, badFrames := 0 }.search (before.bits.drop 1)))

/-- LOCKED_FRAME (R189): judged once its 4,224 bits have been decided in LOCKED. -/
def execLockedFrame (line : LineId) (upsets : List Upset) (s : State) : Host.Outcome State Fault Refusal :=
  let s := strikes upsets s
  let x := s.line line
  if x.stopped = false ∧ x.receiver.sync = .locked ∧ x.receiver.frameTaken = true then .next (judgeLocked line s)
  else .next s

end Sys2Proof.Machine
end

