-- ==== Sys2Proof/Machine/Lines.lean ====
section
/-! DEFINITION. The line units: functions, frame starts, decisions, payload reads and send lists
(Chapter 8). -/

namespace Sys2Proof.Machine

/-! ## Reads of a piece (R165, R166) -/

/-- Reads of `count` beats from a beat on, each of at most 16 beats and within one 4 KiB page (R165). R165 and R166 do
not divide the beats among the reads: DESIGN CHOICE, each read is the longest they allow (log 54). -/
def readBeats : Nat → Nat → Nat → List MemRequest
  | 0, _, _ => []
  | fuel + 1, beat, count =>
    if count = 0 then []
    else
      let n := min 16 (min count (512 - beat % 512))
      { addr := BitVec.ofNat 33 beat, burst := .read n } :: readBeats fuel (beat + n) (count - n)

/-- Reads of the beats that hold a run of bytes (R165, R166). -/
def coverReads (byte length : Nat) : List MemRequest :=
  let count := (byte + length + 7) / 8 - byte / 8
  readBeats count (byte / 8) count

/-- Reads of a piece of a payload ring; at the end of the ring they go on from the window's base (R165). -/
def ringReads (base ring offset length : Nat) : List MemRequest :=
  if offset + length ≤ ring then coverReads (base + offset) length
  else coverReads (base + offset) (ring - offset) ++ coverReads base (offset + length - ring)

/-- The reads of a new job are presented, and the line keeps the job until they have all returned. -/
def startJob (l : LineId) (stream : Option (Fin 4)) (serial byte length : Nat) (reads : List MemRequest)
    (purpose : Nat → Nat → Purpose) (s : State) : State :=
  let x := s.line l
  let job : ReadJob :=
    { id := x.nextJob, stream := stream, serial := serial, lead := byte % 8, length := length,
      total := reads.length, returned := [], failed := false, discarded := false }
  makeRequests (lineQueue l)
    (reads.zipIdx.map fun p => { purpose := purpose x.nextJob p.2, fixed := some p.1 })
    (s.setLine l { x with jobs := x.jobs ++ [job], nextJob := x.nextJob + 1 })

/-! ## Send lists (R169-R174) -/

/-- The state with a line's send list record changed. -/
def State.setList (s : State) (l : LineId) (x : SendList) : State :=
  s.setLine l { s.line l with list := x }

/-- A list is detached (R174). A fetch in flight is forgotten, and its response dropped on return. -/
def SendList.detach (x : SendList) : SendList :=
  { x with state := .none, loaded := none, ending := false, resumePending := false, fetching := none }

/-- A list ends with ERROR at an address (R174). -/
def listError (l : LineId) (address : Nat) (s : State) : State :=
  let s := offer l.val (.sendList .error address) s
  s.setList l (s.line l).list.detach

/-- A list ends with DONE (R173). -/
def listDone (l : LineId) (s : State) : State :=
  let s := offer l.val (.sendList .done 0) s
  s.setList l (s.line l).list.detach

/-- A fetch of the current descriptor address is presented (R171). -/
def fetchDescriptor (l : LineId) (s : State) : State :=
  let x := s.line l
  makeRequest (lineQueue l)
    { purpose := .descriptorFetch l x.nextJob, fixed := some (readAt x.list.current 4) }
    (s.setLine l { x with
      nextJob := x.nextJob + 1
      list := { x.list with loaded := none, fetching := some x.nextJob } })

/-- An address no descriptor may have (R170, R173). -/
def badDescriptorAddress (a : Nat) : Bool := a % 32 != 0 || 2 ^ 36 ≤ a

/-- The address of the descriptor that follows a loaded one (R173). -/
def SendList.follower (x : SendList) (d : Descriptor) : Nat := if d.chain then d.next else x.current + 32

/-- The last bytes of the loaded descriptor have been reserved (R173). -/
def descriptorReserved (l : LineId) (d : Descriptor) (s : State) : State :=
  let x := (s.line l).list
  if d.last then s.setList l { x with ending := true }
  else if badDescriptorAddress (x.follower d) then listError l x.current s
  else fetchDescriptor l (s.setList l { x with current := x.follower d })

/-- A loaded descriptor is valid (R171, case 4). -/
def Descriptor.valid (d : Descriptor) : Bool :=
  d.length != 0 && d.length ≤ 16777216 && d.address + d.length ≤ 2 ^ 36

/-- A fetched descriptor is judged (R171). -/
def judgeDescriptor (l : LineId) (r : Response) (s : State) : State :=
  let x := (s.line l).list
  let d := Descriptor.ofBytes (bytesOfWords r.data)
  if r.ok = false then listError l x.current s
  else if d.hold then
    if x.resumePending then fetchDescriptor l (s.setList l { x with resumePending := false })
    else offer l.val (.sendList .held x.current) (s.setList l { x with state := .held })
  else if d.valid then s.setList l { x with loaded := some d, reserved := 0 }
  else listError l x.current s

/-- A descriptor fetch has returned (R171); one that is no longer awaited is dropped (R174). -/
def descriptorReturned (i : Issued) (r : Response) (s : State) : State :=
  match i.purpose with
  | .descriptorFetch l n =>
    let x := s.line l
    if x.stopped = false ∧ x.list.fetching = some n then
      judgeDescriptor l r (s.setList l { x.list with fetching := none })
    else s
  | _ => s

/-- The purpose of DESCRIPTOR_FETCH_RETURN. -/
def Purpose.isDescriptorFetch : Purpose → Bool
  | .descriptorFetch _ _ => true
  | _ => false

/-- DESCRIPTOR_FETCH_RETURN (R171). -/
def execDescriptorFetchReturn (response : Response) (s : State) : Host.Outcome State Fault Refusal :=
  internalReturn Purpose.isDescriptorFetch descriptorReturned response s

/-- SEND_LIST (R170). A line that has stopped takes no command (R175). -/
def execSendList (s : State) : Host.Outcome State Fault Refusal :=
  match s.command.handed with
  | some (.sendList l p1) =>
    let x := s.line l
    if x.stopped then .next s
    else if badDescriptorAddress p1.toNat then .next (complete .invalid 1 s)
    else if x.list.state ≠ .none then .next (complete .conflict 0 s)
    else
      .next (complete .accepted 0 (fetchDescriptor l (s.setList l
        { x.list with state := .running, current := p1.toNat, ending := false, resumePending := false,
                      serial := x.list.serial + 1 })))
  | _ => .next s

/-- LINE_RESUME (R172). A line that has stopped takes no command (R175). -/
def execLineResume (s : State) : Host.Outcome State Fault Refusal :=
  match s.command.handed with
  | some (.lineResume l) =>
    let x := s.line l
    if x.stopped then .next s
    else
      match x.list.state with
      | .none => .next (complete .conflict 0 s)
      | .held => .next (complete .accepted 0 (fetchDescriptor l (s.setList l { x.list with state := .running })))
      | .running => .next (complete .accepted 0 (s.setList l { x.list with resumePending := true }))
  | _ => .next s

/-! ## Decisions (R161, R163-R166) -/

/-- A decided frame with its kind's fields, nothing flagged. -/
def Decided.plain (kind : FrameKind) (tag : Nat) (position : Count32) (payload : Payload) : Decided :=
  { kind := kind, tag := tag, position := position, isPartial := false, key := false, last := false,
    payload := payload }

/-- A FILL frame (R160, R161). -/
def Decided.fill : Decided := Decided.plain .fill 0 0 (.ready [])

/-- The next-frame buffer takes a decided frame. -/
def setNext (l : LineId) (d : Decided) (s : State) : State := s.setLine l { s.line l with next := some d }

/-- The LABEL condition of R161. A label unit that has stopped gives no copies (R127). -/
def State.labelsWaiting (s : State) (l : LineId) : Bool :=
  let x := s.line l
  x.applied.carriesLabels && !x.labelSent && !s.label.uplink.isEmpty && !s.label.stopped

/-- The LABEL decision (R163). -/
def decideLabel (l : LineId) (s : State) : State :=
  let copies := s.label.uplink.take 8
  let d := Decided.plain .label copies.length 0 (.ready (copies.flatMap fun c => c.take 60))
  postSettle ((s.setLabel { s.label with uplink := s.label.uplink.drop 8 }).setLine l
    { s.line l with next := some d, labelSent := true })

/-- The SKIP decision for a stream's notices (R164). -/
def decideSkip (l : LineId) (n : Fin 4) (first : Notice) (rest : List Notice) (s : State) : State :=
  let notices := first :: rest
  let d : Decided :=
    { Decided.plain .skip n.val first.first (.ready (notices.flatMap Notice.bytes)) with
      isPartial := notices.any Notice.isPartial }
  setNext l d (s.setStream n { s.stream n with notices := [] })

/-- The LIVE decision on a granted claim (R165). -/
def decideLive (l : LineId) (w : WindowEntry) (g : Grant) (x : Stream) (s : State) : State :=
  let job := (s.line l).nextJob
  let d : Decided :=
    { Decided.plain .live g.stream.val g.picture (.waiting job) with key := g.key, last := g.last }
  startJob l (some g.stream) 0 g.address g.length
    (ringReads w.first w.ringBytes g.ringOffset g.length) (.payloadRead l)
    (setNext l d (s.setStream g.stream x))

/-- The FILE decision on the loaded descriptor (R166, R173): the reads of the piece come first (R16). -/
def decideFile (l : LineId) (d : Descriptor) (s : State) : State :=
  let x := s.line l
  let offset := x.list.reserved
  let length := min Config.payloadBytes (d.length - offset)
  let reserved := offset + length
  let isLast := d.last && reserved == d.length
  let frame : Decided :=
    { Decided.plain .file d.tag.toNat (BitVec.ofNat 32 offset) (.waiting x.nextJob) with last := isLast }
  let s := setNext l frame (s.setList l { x.list with reserved := reserved })
  let s := startJob l none x.list.serial (d.address + offset) length (coverReads (d.address + offset) length)
    (.fileRead l) s
  if reserved = d.length then descriptorReserved l d s else s

/-- The FILE condition of R161: the loaded descriptor that has bytes not yet reserved. -/
def SendList.available (x : SendList) : Option Descriptor :=
  match x.state, x.loaded with
  | .running, some d => if x.reserved < d.length then some d else none
  | _, _ => none

/-- The decision for FILE or FILL (R161). -/
def decideFileOrFill (l : LineId) (s : State) : State :=
  match (s.line l).list.available with
  | some d => decideFile l d s
  | none => setNext l Decided.fill s

/-- The governor's answer to a claim request of the line's live stream (R135). A governor that has stopped
grants none (R149). -/
def State.claimFor (s : State) (n : Fin 4) : Option (WindowEntry × Grant × Stream) :=
  if s.governor.stopped then none
  else
    match s.codedWindow n with
    | some w => ((s.stream n).grant n w).map fun g => (w, g.1, g.2)
    | none => none

/-- The decision for SKIP, LIVE or what comes after (R161). A governor that has stopped gives no notices. -/
def decideStream (l : LineId) (n : Fin 4) (s : State) : State :=
  match (s.stream n).notices, s.governor.stopped with
  | first :: rest, false => decideSkip l n first rest s
  | _, _ =>
    match s.claimFor n with
    | some (w, g, x) => decideLive l w g x s
    | none => decideFileOrFill l s

/-- The decision that fills the next-frame buffer (R161). -/
def decideFrame (l : LineId) (s : State) : State :=
  if s.labelsWaiting l then decideLabel l s
  else
    match (s.line l).applied.liveStream with
    | some n => decideStream l n s
    | none => decideFileOrFill l s

/-! ## Frame starts (R158, R160, R162, R168) -/

/-- The payload of an AUDIO frame (R162). -/
def audioPayload (held : Vector HeldFrame 16) (buses : List (Fin 16)) : List Byte :=
  buses.flatMap fun b => held[b].samples.toList.flatMap fun x => beBytes 3 x.toNat

/-- One more frame sent of a kind (R204). -/
def Totals.addFrame (t : Totals) (k : FrameKind) : Totals :=
  match k with
  | .fill => { t with fill := t.fill + 1 }
  | .audio => { t with audio := t.audio + 1 }
  | .live => { t with live := t.live + 1 }
  | .skip => { t with skip := t.skip + 1 }
  | .label => { t with label := t.label + 1 }
  | .file => { t with file := t.file + 1 }

/-- One more underrun slot (R204). -/
def Totals.addUnderrun (t : Totals) (isUnderrun : Bool) : Totals :=
  if isUnderrun then { t with underruns := t.underruns + 1 } else t

/-- A frame goes into transmission: it takes the sequence, its bytes are fixed, and it is offered to the
measurement (R158, R168, R178, R179). The frame start clears the new-period flag. `count` is the audio frame
counter at the frame start, which at an audio boundary is the value that boundary has left (R50). -/
def sendFrame (l : LineId) (count : Count32) (d : Decided) (payload : List Byte) (isUnderrun : Bool) (s : State) :
    State :=
  let x := s.line l
  let frame : TxFrame :=
    { kind := d.kind
      last := d.last
      bytes := frameBytes d.kind.code x.periodUnlocked d.isPartial d.key d.last l x.sequence
        count d.tag d.position payload
      sent := 0 }
  measureOffer l (fun t => (t.addFrame d.kind).addUnderrun isUnderrun)
    (s.setLine l { x with tx := some frame, sequence := x.sequence + 1, newPeriod := false })

/-- A frame in the next-frame buffer that has failed is discarded (R160). -/
def Decided.keep (d : Decided) : Option Decided := if d.payload = .failed then none else some d

/-- The choice of the frame to send (R160). -/
def chooseFrame (l : LineId) (count : Count32) (s : State) : State :=
  let x := s.line l
  if x.audioDue = true ∧ x.applied.buses ≠ [] then
    let d := Decided.plain .audio x.applied.buses.length s.mixer.held[0].frame (.ready [])
    sendFrame l count d (audioPayload s.mixer.held x.applied.buses) false
      (s.setLine l { x with audioDue := false, next := x.next.bind Decided.keep })
  else
    match x.next with
    | none => sendFrame l count Decided.fill [] false s
    | some d =>
      match d.payload with
      | .ready bytes => sendFrame l count d bytes false (s.setLine l { x with next := none })
      | .failed => sendFrame l count Decided.fill [] false (s.setLine l { x with next := none })
      | .waiting _ => sendFrame l count Decided.fill [] true s

/-- A frame start (R160): a decision follows when the choice has left the next-frame buffer empty. -/
def frameStart (l : LineId) (count : Count32) (s : State) : State :=
  let s := chooseFrame l count s
  if (s.line l).next.isSome then s else decideFrame l s

/-- The output of a line is settled after a change. -/
def settleLine (l : LineId) (s : State) : State := s.setLine l (s.line l).settleOutput

/-! ## Line functions (R153-R155) -/

/-- A LINE_FUNCTION event, and the label unit told of the change of state (R153-R155). -/
def functionChanged (l : LineId) (o : LineOutcome) (s : State) : State :=
  settleLine l (postSettle (offer l.val (.lineFunction o) s))

/-- The line enters HALTED (R154). -/
def enterHalted (l : LineId) (s : State) : State :=
  functionChanged l .halted (s.setLine l
    { s.line l with function := .halted, startPending := false, audioDue := false, tx := none })

/-- The line's LINE_FUNCTION pair is pending (R32). -/
def State.functionPending (s : State) (l : LineId) : Bool := s.pairPending l.val (.lineFunction .started)

/-- A staged copy differs from the applied settings in rate class or zero-run code (R153). -/
def Line.stagedDiffers (x : Line) : Bool :=
  match x.staged with
  | some g => g.rate != x.applied.rate || g.code != x.applied.code
  | none => false

/-- The acceptance of LINE_START (R153). -/
def startLine (l : LineId) (s : State) : State :=
  let x := s.line l
  functionChanged l .started (s.setLine l
    { x with function := .active, startPending := true, holdBefore := x.function == .halted })

/-- LINE_START (R153). A line that has stopped takes no command (R175). -/
def execLineStart (s : State) : Host.Outcome State Fault Refusal :=
  match s.command.handed with
  | some (.lineStart l) =>
    let x := s.line l
    if x.stopped then .next s
    else if x.applied.rate = .off then .next (complete .notOperational 0 s)
    else if x.function = .active ∨ x.function = .halting ∨ x.stagedDiffers = true then
      .next (complete .conflict 0 s)
    else if s.functionPending l then .next (complete .statusWaiting 0 s)
    else .next (complete .accepted 0 (startLine l s))
  | _ => .next s

/-- The acceptance of LINE_HALT (R154). The label unit is told on entering HALTED and not at HALTING, where R124 alone
would have the uplink decision made again: DESIGN CHOICE (log 47). -/
def haltLine (l : LineId) (s : State) : State :=
  if (s.line l).tx.isSome then s.setLine l { s.line l with function := .halting } else enterHalted l s

/-- LINE_HALT (R154). A line that has stopped takes no command (R175). -/
def execLineHalt (s : State) : Host.Outcome State Fault Refusal :=
  match s.command.handed with
  | some (.lineHalt l) =>
    let x := s.line l
    if x.stopped then .next s
    else if x.function ≠ .active then .next (complete .conflict 0 s)
    else if s.functionPending l then .next (complete .statusWaiting 0 s)
    else .next (complete .accepted 0 (haltLine l s))
  | _ => .next s

/-- A line cleared (R155, steps 1 to 7, but for the event). The coder's reset drops the symbols that wait out the delay
too, which shows under REMOTE: DESIGN CHOICE (R184, log 51). -/
def Line.clear (x : Line) : Line :=
  { x with
    tx := none
    next := none
    jobs := x.jobs.map fun j => { j with discarded := true }
    list := x.list.detach
    sequence := 0
    coder := Coder.reset
    startPending := false
    holdBefore := false
    audioDue := false
    newPeriod := false
    labelSent := false
    function := .idle }

/-- LINE_CLEAR (R155). A line that has stopped takes no command (R175). -/
def execLineClear (s : State) : Host.Outcome State Fault Refusal :=
  match s.command.handed with
  | some (.lineClear l) =>
    let x := s.line l
    if x.stopped then .next s
    else .next (complete .accepted 0 (functionChanged l .cleared (s.setLine l x.clear)))
  | _ => .next s

/-! ## The end of a frame (R158) -/

/-- The frame ends its transmission: the last frame of a list that is ending makes DONE (R173). -/
def endTransmission (l : LineId) (f : TxFrame) (s : State) : State :=
  let s := s.setLine l { s.line l with tx := none }
  if f.kind = .file ∧ f.last = true ∧ (s.line l).list.ending = true then listDone l s else s

/-- What comes in place of the frame that has ended (R154, R156, R158). -/
def afterFrame (l : LineId) (s : State) : State :=
  let x := s.line l
  match x.function with
  | .active => if x.applied.loopback = .remote then s else frameStart l s.timing.audioCount s
  | .halting => enterHalted l s
  | .idle => s
  | .halted => s

/-- FRAME_END (R158): taken once the coder has taken the 4,224 bits of the frame in transmission (log 18). The DONE of a
list comes before the HALTED of a line that was HALTING, which no rule orders: DESIGN CHOICE (R154, R173, log 49). -/
def execFrameEnd (line : LineId) (s : State) : Host.Outcome State Fault Refusal :=
  let x := s.line line
  match x.tx with
  | some f =>
    if x.stopped = false ∧ Config.frameBits ≤ f.sent then
      .next (settleLine line (afterFrame line (endTransmission line f s)))
    else .next s
  | none => .next s

/-! ## The audio boundary (R159) -/

/-- A staged LINE group takes effect (R152, R185, R197). The label unit is told of a change of the carries-labels flag
(R124, R152). -/
def applyLine (l : LineId) (s : State) : State :=
  let x := s.line l
  match x.staged with
  | none => s
  | some g =>
    let s := s.setLine l { x with applied := g, staged := none }.decideBits
    let s := if g.rate = .off ∧ x.applied.rate ≠ .off then declareLos l s else s
    if g.carriesLabels = x.applied.carriesLabels then s else postSettle s

/-- Step 2 of R159. -/
def Line.newAudioPeriod (x : Line) (b : AudioBoundary) : Line :=
  { x with newPeriod := true, labelSent := false, periodUnlocked := b.state != .locked }

/-- The condition of step 3 of R159. -/
def Line.startsAtBoundary (x : Line) : Bool :=
  x.function == .active && x.applied.loopback != .remote && x.applied.rate != .off && x.tx.isNone

/-- The line's reaction to an audio boundary (R159). -/
def lineBoundary (l : LineId) (b : AudioBoundary) (s : State) : State :=
  let s := applyLine l s
  let s := s.setLine l ((s.line l).newAudioPeriod b)
  let s :=
    if (s.line l).startsAtBoundary then
      frameStart l b.count (s.setLine l { s.line l with startPending := false })
    else s
  settleLine l s

/-- LINE_AUDIO_BOUNDARY (R159): the oldest boundary handed to the line is taken. One that has stopped takes
none (R175). -/
def execLineAudioBoundary (line : LineId) (s : State) : Host.Outcome State Fault Refusal :=
  match (s.line line).boundaries with
  | [] => .next s
  | b :: rest =>
    let s := s.setLine line { s.line line with boundaries := rest }
    if (s.line line).stopped then .next s else .next (lineBoundary line b s)

/-! ## Payload and file reads (R165, R166) -/

/-- A read of a job has returned. -/
def ReadJob.note (j : ReadJob) (index : Nat) (r : Response) : ReadJob :=
  { j with returned := j.returned ++ [(index, r.data)], failed := j.failed || !r.ok }

/-- Every read of the job has returned. -/
def ReadJob.complete (j : ReadJob) : Bool := j.total ≤ j.returned.length

/-- The bytes of the piece: those of the reads in order, less what lies outside it (R165). -/
def ReadJob.bytes (j : ReadJob) : List Byte :=
  let all := (List.range j.total).flatMap fun k =>
    bytesOfWords (((j.returned.find? fun p => p.1 == k).map (·.2)).getD [])
  slice all j.lead j.length

/-- The job with its record changed, or forgotten once every read has returned. -/
def Line.setJob (x : Line) (j : ReadJob) : Line :=
  { x with jobs :=
      if j.complete then x.jobs.filter fun k => k.id != j.id
      else x.jobs.map fun k => if k.id == j.id then j else k }

/-- The frame in the next-frame buffer that waits for a job has its payload settled. -/
def Line.settlePayload (x : Line) (job : Nat) (p : Payload) : Line :=
  match x.next with
  | some d => if d.payload = .waiting job then { x with next := some { d with payload := p } } else x
  | none => x

/-- A job of a line. -/
def Line.findJob (x : Line) (job : Nat) : Option ReadJob := x.jobs.find? fun j => j.id == job

/-- A LIVE read has returned: with the last one the claim ends (R136, R165). -/
def payloadJobReturned (l : LineId) (j : ReadJob) (s : State) : State :=
  let s := s.setLine l ((s.line l).setJob j)
  match j.stream with
  | some n =>
    if j.complete then
      let ended := endClaim n (!j.failed && !j.discarded) s
      ended.1.setLine l ((ended.1.line l).settlePayload j.id (if ended.2 then .ready j.bytes else .failed))
    else s
  | none => s

/-- A payload read has returned (R165). -/
def payloadReturned (i : Issued) (r : Response) (s : State) : State :=
  match i.purpose with
  | .payloadRead l job index =>
    if (s.line l).stopped then s
    else
      match (s.line l).findJob job with
      | some j => payloadJobReturned l (j.note index r) s
      | none => s
  | _ => s

/-- The purpose of PAYLOAD_READ_RETURN. -/
def Purpose.isPayloadRead : Purpose → Bool
  | .payloadRead _ _ _ => true
  | _ => false

/-- PAYLOAD_READ_RETURN (R165). -/
def execPayloadReadReturn (response : Response) (s : State) : Host.Outcome State Fault Refusal :=
  internalReturn Purpose.isPayloadRead payloadReturned response s

/-- The list a piece was reserved from is still attached (R166). -/
def Line.stillAttached (x : Line) (j : ReadJob) : Bool :=
  x.list.state != .none && x.list.serial == j.serial && !j.discarded

/-- A FILE read has returned: an ERROR fails the frame and ends its list, and the last OK makes the frame
ready (R166, R174). -/
def fileJobReturned (l : LineId) (j : ReadJob) (address : BeatAddr) (ok : Bool) (s : State) : State :=
  let x := s.line l
  let s := s.setLine l (x.setJob j)
  if ok then
    if j.complete && !j.failed then s.setLine l ((s.line l).settlePayload j.id (.ready j.bytes)) else s
  else
    let s := s.setLine l ((s.line l).settlePayload j.id .failed)
    if x.stillAttached j then listError l (BeatAddr.byte address) s else s

/-- A FILE data read has returned (R166). -/
def fileReturned (i : Issued) (r : Response) (s : State) : State :=
  match i.purpose with
  | .fileRead l job index =>
    if (s.line l).stopped then s
    else
      match (s.line l).findJob job with
      | some j => fileJobReturned l (j.note index r) i.request.addr r.ok s
      | none => s
  | _ => s

/-- The purpose of FILE_READ_RETURN. -/
def Purpose.isFileRead : Purpose → Bool
  | .fileRead _ _ _ => true
  | _ => false

/-- FILE_READ_RETURN (R166). -/
def execFileReadReturn (response : Response) (s : State) : Host.Outcome State Fault Refusal :=
  internalReturn Purpose.isFileRead fileReturned response s

end Sys2Proof.Machine
end

