-- ==== Sys2Proof/Machine/Measure.lean ====
section
/-! DEFINITION. The line measurement of the fault unit (R204-R211). -/

namespace Sys2Proof.Machine

/-- The state with the fault unit changed. -/
def State.setFault (s : State) (x : FaultUnit) : State := { s with fault := x }

/-! ## MEASURE_START and MEASURE_STOP (R205, R206) -/

/-- The acceptance of MEASURE_START by the measurement state (R205). -/
def FaultUnit.start (x : FaultUnit) (length : Nat) : FaultUnit :=
  match x.state with
  | .inactive => { x with state := .starting, interval := length }
  | .starting => { x with interval := length }
  | .active => { x with stagedInterval := some length }

/-- MEASURE_START (R205): the interval length is in the low 4 bytes of P1 (11.2). In PASS-ONLY mode the
fault unit takes no command (R212). -/
def execMeasureStart (s : State) : Host.Outcome State Fault Refusal :=
  match s.command.handed with
  | some (.measureStart p1) =>
    let length := p1.toNat % 2 ^ 32
    if s.isNormal then
      if length < 100 ∨ 60000 < length then .next (complete .invalid 1 s)
      else if (s.ownedWindow .meas).isNone then .next (complete .notOperational 0 s)
      else .next (complete .accepted 0 (s.setFault (s.fault.start length)))
    else .next s
  | _ => .next s

/-- The measurement ends (R206, R211). -/
def FaultUnit.stop (x : FaultUnit) : FaultUnit :=
  { x with state := .inactive, stagedInterval := none, frames := 0 }

/-- MEASURE_STOP (R206). In PASS-ONLY mode the fault unit takes no command (R212). -/
def execMeasureStop (s : State) : Host.Outcome State Fault Refusal :=
  match s.command.handed with
  | some .measureStop =>
    if s.isNormal then
      if s.fault.state = .inactive then .next (complete .conflict 0 s)
      else .next (complete .accepted 0 (s.setFault s.fault.stop))
    else .next s
  | _ => .next s

/-! ## The measurement timer (R207, R209) -/

/-- Step 1 of R207. -/
def FaultUnit.countFrame (x : FaultUnit) : FaultUnit :=
  { x with
    totals := Vector.ofFn fun l =>
      if x.los[l] then { x.totals[l] with losFrames := x.totals[l].losFrames + 1 } else x.totals[l]
    frames := x.frames + 1 }

/-- The values an interval end leaves (R207 step 2, R209). -/
def FaultUnit.endInterval (x : FaultUnit) (audioCount : Count32) : FaultUnit :=
  { x with
    number := x.number + 1
    buffer := mapTable
      (fun t => { totals := t, interval := x.number + 1, length := x.interval, audioCount := audioCount })
      x.totals
    frames := 0
    interval := x.stagedInterval.getD x.interval
    stagedInterval := none
    writes := x.writes ++ [{ serial := x.nextSerial, opened := 3, begun := false, number := 0 }]
    nextSerial := x.nextSerial + 1 }

/-- The three block writes of an interval end (R210). -/
def blockWrites (serial : Nat) : List Made :=
  (List.finRange 3).map fun l => { purpose := .measWrite serial l false, fixed := none }

/-- Step 2 of R207, at a boundary that has left the audio frame counter at `count` (R50, R209). -/
def endIfReached (count : Count32) (s : State) : State :=
  let x := s.fault
  if x.interval ≤ x.frames then
    makeRequests faultQueue (blockWrites x.nextSerial) (s.setFault (x.endInterval count))
  else s

/-- Step 3 of R207. -/
def FaultUnit.begin (x : FaultUnit) : FaultUnit :=
  { x with totals := Vector.replicate 3 Totals.zero, number := 0, frames := 0, state := .active }

/-- The measurement timer's reaction to an audio boundary (R207). -/
def timerBoundary (b : AudioBoundary) (s : State) : State :=
  match s.fault.state with
  | .inactive => s
  | .starting => s.setFault s.fault.begin
  | .active => endIfReached b.count (s.setFault s.fault.countFrame)

/-- MEASUREMENT_TIMER (R207): the oldest boundary handed to the measurement timer is taken. In PASS-ONLY
mode none is taken (R212). -/
def execMeasurementTimer (s : State) : Host.Outcome State Fault Refusal :=
  match s.fault.boundaries with
  | [] => .next s
  | b :: rest =>
    let s := s.setFault { s.fault with boundaries := rest }
    if s.isNormal then .next (timerBoundary b s) else .next s

/-! ## Block writes (R210, R211) -/

/-- An interval end whose writes have all completed offers its MEASURE event, when one of them had been
presented (R210, R211). -/
def settleInterval (s : State) (g : IntervalWrites) : State :=
  if g.opened = 0 ∧ g.begun = true then offer 0 (.measure g.number) s else s

/-- The interval ends with no write left open are settled and forgotten (R210). -/
def settleIntervals (s : State) : State :=
  let s' := s.fault.writes.foldl settleInterval s
  s'.setFault { s'.fault with writes := s'.fault.writes.filter fun g => g.opened != 0 }

/-- A block write has completed: OK, lost, cancelled for good, or dropped (R210, R211). -/
def blockDone (serial : Nat) (s : State) : State :=
  settleIntervals (s.setFault { s.fault with writes := s.fault.writes.map fun g =>
    if g.serial == serial then { g with opened := g.opened - 1 } else g })

/-- A block write has been cancelled at its grant: it is made again, to take the new window's address, or
given up with the window (R211). -/
def blockCancelled (serial : Nat) (l : LineId) (again : Bool) (s : State) : State :=
  if (s.ownedWindow .meas).isSome then
    makeRequest faultQueue { purpose := .measWrite serial l again, fixed := none } s
  else blockDone serial s

/-- The response to a block write (R210). -/
def blockReturned (i : Issued) (r : Response) (s : State) : State :=
  match i.purpose with
  | .measWrite serial l again =>
    if r.ok = false ∧ again = false then
      makeRequest faultQueue { purpose := .measWrite serial l true, fixed := some i.request } s
    else blockDone serial s
  | _ => s

/-- The purpose of MEAS_WRITE_RETURN. -/
def Purpose.isMeasWrite : Purpose → Bool
  | .measWrite _ _ _ => true
  | _ => false

/-- MEAS_WRITE_RETURN (R210). -/
def execMeasWriteReturn (response : Response) (s : State) : Host.Outcome State Fault Refusal :=
  internalReturn Purpose.isMeasWrite blockReturned response s

/-- Block writes not yet presented are dropped (R211). -/
def dropBlockWrites (s : State) : State :=
  let x := s.path.queues[faultQueue]
  let s := s.setQueue faultQueue { x with later := [] }
  x.later.foldl (fun s m =>
    match m.purpose with
    | .measWrite serial _ _ => blockDone serial s
    | _ => s) s

/-- A block write not yet presented takes its address from the new window (R211). One that was to repeat a write takes
the buffer's contents with it, as a cancelled one does: DESIGN CHOICE (log 21). -/
def Made.reAimed (m : Made) : Made :=
  match m.purpose with
  | .measWrite _ _ _ => { m with fixed := none }
  | _ => m

/-- A new table has another MEAS window than the old one, or one where the old one had none (R211). -/
def measWindowMoved (s : State) : State :=
  let x := s.path.queues[faultQueue]
  s.setQueue faultQueue { x with later := x.later.map Made.reAimed }

/-- A new table has no MEAS window where the old one had one (R211). -/
def measWindowGone (s : State) : State := dropBlockWrites (s.setFault s.fault.stop)

end Sys2Proof.Machine
end

