-- ==== Sys2Proof/Machine/Flags.lean ====
section
/-! DEFINITION. What the part shows outside: the ATTN and FAULT pins, the staged flags, the status area and
the hint beat (R36, R38, R203, 11.6). -/

namespace Sys2Proof.Machine

/-! ## Pins (R36, R156, R203) -/

/-- ATTN is asserted exactly while report written − consumed is greater than 0 (R36). -/
def State.attn (s : State) : Bool := s.report.written - s.report.consumed != 0

/-- FAULT is asserted exactly while the mode is PASS-ONLY (R203). -/
def State.faultPin (s : State) : Bool := s.fault.mode == .passOnly

/-- What stands on the transmit pair of a line (R156, R181). -/
def State.ltx (s : State) (l : LineId) : Symbol := (s.line l).level

/-! ## The staged flags (R29) -/

/-- The staged flags by group number (R29). -/
def State.stagedFlags (s : State) : List Bool :=
  [s.timing.stagedRate.isSome, s.label.staged.isSome] ++
    (List.finRange 4).map (fun n => (s.stream n).staged.isSome) ++
    (List.finRange 3).map (fun l => (s.line l).staged.isSome) ++ [s.mixer.staged.isSome]

/-- A set of flags as a number, the first at bit 0. -/
def flagsValue : List Bool → Nat
  | [] => 0
  | b :: bs => bit b + 2 * flagsValue bs

/-! ## The status area (R38, 11.6) -/

/-- The code of a frame kind field, 0xFF for none or empty (11.6). -/
def kindCode (k : Option FrameKind) : Nat := (k.map FrameKind.code).getD 0xFF

/-- 0x1000–0x1007: mode, fatal cause, further causes, staged flags. -/
def State.modeBytes (s : State) : List Byte :=
  padTo 4 (leBytes 1 s.fault.mode.code ++ leBytes 1 ((s.fault.cause.map FatalCause.code).getD 0) ++
      leBytes 1 s.fault.further) ++
    leBytes 2 ((s.fault.cause.map FatalCause.detail).getD 0) ++ leBytes 2 (flagsValue s.stagedFlags)

/-- 0x1008–0x1017: the command unit and the report unit. -/
def State.commandBytes (s : State) : List Byte :=
  leBytes 2 s.command.producer.toNat ++ leBytes 2 s.command.consumer.toNat ++
    leBytes 2 s.command.state.code ++ leBytes 2 s.command.executing.toNat ++
    leBytes 2 s.report.written.toNat ++ leBytes 2 s.report.consumed.toNat ++ leBytes 2 s.report.slot ++
    leBytes 1 s.report.queue.length ++ flagByte s.report.post.isSome

/-- 0x1018–0x1029: the timing unit. -/
def State.timingBytes (s : State) : List Byte :=
  s.timing.timecode.bytes ++ leBytes 4 s.timing.videoCount.toNat ++ leBytes 4 s.timing.audioCount.toNat ++
    leBytes 1 s.timing.video.state.code ++ leBytes 1 s.timing.audio.state.code ++
    leBytes 2 s.timing.video.glitches ++ leBytes 2 s.timing.audio.glitches

/-- 0x102A–0x1035: the measurement record (R204). -/
def State.measureBytes (s : State) : List Byte :=
  flagByte (s.fault.state == .active) ++ leBytes 1 s.fault.state.code ++ leBytes 4 s.fault.number.toNat ++
    leBytes 2 s.fault.interval ++ leBytes 2 (s.fault.stagedInterval.getD 0) ++ leBytes 2 s.fault.frames

/-- 0x1040–0x108F: the latest failing addresses and fault counts (R199). -/
def State.faultBytes (s : State) : List Byte :=
  s.fault.classes.toList.flatMap (fun c => leBytes 8 c.latest.value) ++
    s.fault.classes.toList.flatMap (fun c => leBytes 2 c.count.toNat)

/-- 0x1090–0x10CF: the bus meters (R94). -/
def State.meterBytes (s : State) : List Byte := s.mixer.meters.toList.flatMap fun m => leBytes 4 m

/-- 0x10D0–0x111F: the label unit (R105, R107, R113). -/
def State.labelBytes (s : State) : List Byte :=
  let x := s.label
  padTo 16 (leBytes 2 x.written.toNat ++ leBytes 2 x.consumed.toNat ++ leBytes 2 x.slot ++
      leBytes 1 x.occupied ++ leBytes 1 x.uplink.length ++ leBytes 2 x.stray.toNat) ++
    (List.finRange 8).flatMap (fun k => leBytes 2 (x.openId k).toNat) ++
    x.cameras.toList.flatMap (fun c => leBytes 2 c.lastSlot.toNat) ++
    x.cameras.toList.flatMap (fun c => leBytes 4 c.completions.toNat)

/-- The 32 bytes of a stream (0x1120 + 32n). -/
def Stream.statusBytes (x : Stream) : List Byte :=
  let head := match x.pictures with
    | p :: _ => leBytes 4 p.number.toNat ++ p.timecode.bytes
    | [] => leBytes 8 0
  padTo 32 (leBytes 4 x.fill ++ leBytes 1 x.hint ++ flagByte x.keyRequest ++ leBytes 1 x.pictures.length ++
    leBytes 1 x.notices.length ++ leBytes 4 x.counter.toNat ++ leBytes 4 x.lastAdmitted.toNat ++ head)

/-- The 32 bytes of a line (0x11A0 + 32L). -/
def Line.statusBytes (x : Line) : List Byte :=
  padTo 32 (leBytes 1 x.function.code ++ leBytes 1 x.list.state.code ++ flagByte x.receiver.los ++
    leBytes 1 x.receiver.sync.code ++ leBytes 2 x.sequence.toNat ++ leBytes 2 x.receiver.ignored.toNat ++
    leBytes 8 x.list.current ++ leBytes 4 x.list.reserved ++ flagByte x.list.resumePending ++
    leBytes 1 (kindCode (x.tx.map (·.kind))) ++ leBytes 1 (kindCode (x.next.map (·.kind))))

/-- The 8 bytes of a source (0x1200 + 8x); IDLE is 0 and ACTIVE 1. -/
def Source.statusBytes (x : Source) : List Byte :=
  padTo 2 (flagByte x.active) ++ leBytes 2 x.late.toNat ++ leBytes 2 x.rewrites.toNat ++
    leBytes 2 x.outOfWindow.toNat

/-- The 1,024 bytes of the status area (11.6). -/
def State.statusBytes (s : State) : List Byte :=
  padTo 64 (s.modeBytes ++ s.commandBytes ++ s.timingBytes ++ s.measureBytes) ++ s.faultBytes ++
    s.meterBytes ++ s.labelBytes ++ s.governor.streams.toList.flatMap Stream.statusBytes ++
    s.lines.toList.flatMap Line.statusBytes ++ s.mixer.sources.toList.flatMap Source.statusBytes

/-- The beats of a status-area read of `n` beats from a control page offset: each beat above 0x13FF reads
as zero (R13). -/
def State.statusBeats (s : State) (offset n : Nat) : List Word :=
  (wordsOfBytes (slice s.statusBytes (offset - 0x1000) (8 * n)) ++ List.replicate n 0).take n

/-- The beats of a hint-beat read of `n` beats from a marker page offset: the beat at offset 8 holds the
hint beat, every other reads as zero (R14). -/
def Stream.hintBeats (x : Stream) (offset n : Nat) : List Word :=
  (List.range n).map fun k => if offset + 8 * k = 8 then x.hintWord else 0

end Sys2Proof.Machine
end

