-- ==== Sys2Proof/Machine/Reports.lean ====
section
/-! DEFINITION. The report unit's ring and the command unit's counts, records and completions (Chapter 2). -/

namespace Sys2Proof.Machine

/-! ## Posting (R33, R34) -/

/-- written − consumed, modulo 65,536 (R33). -/
def Report.unread (r : Report) : Nat := (r.written - r.consumed).toNat

/-- The report unit may present a post write (R33, R34). -/
def State.mayPost (s : State) : Bool :=
  s.isNormal && !s.report.stopped && (s.ownedWindow .report).isSome && s.report.unread < s.reportRing

/-- The write of a record at the write slot (R33). -/
def State.postRequest (s : State) (r : Record) : MemRequest :=
  { addr := beatOf (((s.ownedWindow .report).map (·.first)).getD 0 + 32 * s.report.slot)
    burst := fullWrite r.bytes }

/-- The record stands in the post buffer and its write is presented (R33). The manual does not say whether a
record presented again after a cancellation that followed an ERROR has two tries anew: DESIGN CHOICE, it has
(log 21). -/
def presentPost (r : Record) (s : State) : State :=
  makeRequest reportQueue { purpose := .reportPost false, fixed := some (s.postRequest r) }
    { s with report := { s.report with post := some { record := r, presented := true } } }

/-- REPORT_POST (R33, R34): the head of the queue, or the record of a cancelled post write. -/
def execReportPost (s : State) : Host.Outcome State Fault Refusal :=
  if s.mayPost then
    match s.report.post, s.report.queue with
    | none, r :: rest => .next (presentPost r { s with report := { s.report with queue := rest } })
    | some p, _ => if p.presented then .next s else .next (presentPost p.record s)
    | none, [] => .next s
  else .next s

/-- The record in the post buffer waits to be presented again (R34). -/
def postCancelled (s : State) : State :=
  { s with report := { s.report with post := s.report.post.map fun p => { p with presented := false } } }

/-- The response to a post write (R33, R34). -/
def postReturned (i : Issued) (r : Response) (s : State) : State :=
  if i.stale then postCancelled s
  else if r.ok then
    { s with report := { s.report with
        post := none
        written := s.report.written + 1
        slot := if s.report.slot + 1 < s.reportRing then s.report.slot + 1 else 0 } }
  else
    match i.purpose with
    | .reportPost false => makeRequest reportQueue { purpose := .reportPost true, fixed := some i.request } s
    | _ => { s with report := { s.report with post := none } }

/-- The purpose of REPORT_POST_WRITE_RETURN. -/
def Purpose.isReportPost : Purpose → Bool
  | .reportPost _ => true
  | _ => false

/-- REPORT_POST_WRITE_RETURN (R34). -/
def execReportPostWriteReturn (response : Response) (s : State) : Host.Outcome State Fault Refusal :=
  internalReturn Purpose.isReportPost postReturned response s

/-- A consumed count value against a written count (R35, R123). -/
def clampConsumed (written value : Count16) (limit : Nat) : Count16 :=
  let d := (written - value).toNat
  if d ≤ limit then value
  else if d < 32768 then written - BitVec.ofNat 16 limit
  else written

/-- The limit of R35: R, less 1 while the post buffer holds a record, and 0 with no REPORT window. -/
def State.reportLimit (s : State) : Nat := s.reportRing - bit s.report.post.isSome

/-- REPORT_CONSUMED_COUNT_WRITE (R35): the oldest value handed to the report unit is taken. One that has
stopped takes none (R37). -/
def execReportConsumedCountWrite (s : State) : Host.Outcome State Fault Refusal :=
  match s.report.inbox with
  | [] => .next s
  | v :: rest =>
    let s := { s with report := { s.report with inbox := rest } }
    if s.report.stopped then .next s
    else .next { s with report := { s.report with
      consumed := clampConsumed s.report.written v s.reportLimit } }

/-! ## The command ring (R22-R26) -/

/-- In IDLE, with the counts different, the command unit presents the read of the record at the consumer
count (R23). -/
def fetchCommand (s : State) : State :=
  let c := s.command
  if c.state = .idle ∧ c.producer ≠ c.consumer ∧ c.stopped = false then
    makeRequest commandQueue
      { purpose := .recordRead
        fixed := some (readAt (s.controlPage + 0x0C00 + 32 * (c.consumer.toNat % Config.commandSlots)) 4) }
      { s with command := { c with state := .fetching, executing := c.consumer } }
  else s

/-- The failing address of a CMD_OVERRUN: the producer count word (R22). -/
def State.producerWord (s : State) : FailAddress := .address (BitVec.ofNat 36 (s.controlPage + 0x0E00))

/-- A producer count value is taken (R22). -/
def takeProducer (v : Count16) (s : State) : State :=
  if (v - s.command.consumer).toNat ≤ Config.commandSlots then
    { s with command := { s.command with producer := v } }
  else
    raiseFault .cmdOverrun s.producerWord
      { s with command := { s.command with producer := v, consumer := v - 16 } }

/-- PRODUCER_COUNT_WRITE (R22, R23): the oldest value handed to the command unit is taken. One that has
stopped takes none (R27). -/
def execProducerCountWrite (s : State) : Host.Outcome State Fault Refusal :=
  match s.command.inbox with
  | [] => .next s
  | v :: rest =>
    let s := { s with command := { s.command with inbox := rest } }
    if s.command.stopped then .next s else .next (fetchCommand (takeProducer v s))

/-- The record read returns: the record is decoded and checked (R23, R24). -/
def recordReturned (_ : Issued) (r : Response) (s : State) : State :=
  if s.command.stopped then s
  else if r.ok then
    let s := { s with command := { s.command with state := .executing } }
    match decodeRecord (bytesOfWords r.data) with
    | .ok h => { s with command := { s.command with handed := some h } }
    | .error w => complete .invalid w s
  else complete .invalid 0xFFFE s

/-- The purpose of RECORD_READ_RETURN. -/
def Purpose.isRecordRead : Purpose → Bool
  | .recordRead => true
  | _ => false

/-- RECORD_READ_RETURN (R23, R24). -/
def execRecordReadReturn (response : Response) (s : State) : Host.Outcome State Fault Refusal :=
  internalReturn Purpose.isRecordRead recordReturned response s

/-- A command is complete (R26). -/
def finishCommand (s : State) : State :=
  let c := s.command
  fetchCommand { s with command := { c with
    state := .idle
    consumer := if c.consumer = c.executing then c.executing + 1 else c.consumer } }

/-- The completion write returns (R25, R26). -/
def completionReturned (i : Issued) (r : Response) (s : State) : State :=
  if s.command.stopped then s
  else
    match i.purpose, r.ok with
    | .completionWrite false, false =>
      makeRequest commandQueue { purpose := .completionWrite true, fixed := some i.request } s
    | _, _ => finishCommand s

/-- The purpose of COMPLETION_WRITE_RETURN. -/
def Purpose.isCompletionWrite : Purpose → Bool
  | .completionWrite _ => true
  | _ => false

/-- COMPLETION_WRITE_RETURN (R25, R26). -/
def execCompletionWriteReturn (response : Response) (s : State) : Host.Outcome State Fault Refusal :=
  internalReturn Purpose.isCompletionWrite completionReturned response s

/-! ## Further reads of a command (R11, R24, R28) -/

/-- The command unit makes the further reads of the command it has handed out. -/
def startGather (group : Option (Fin 10)) (reads : List Made) (s : State) : State :=
  makeRequests commandQueue reads
    { s with command := { s.command with
        handed := none
        gather := some { group := group, total := reads.length, returned := [], failed := false } } }

/-- The reads of a run of the control page in reads of `beats` beats, in address order. -/
def State.pageReads (s : State) (offset count beats : Nat) (purpose : Nat → Purpose) : List Made :=
  (List.range count).map fun k =>
    { purpose := purpose k, fixed := some (readAt (s.controlPage + offset + 8 * beats * k) beats) }

/-- A further read has returned (log 15: the command is decided when all of them have). -/
def Gather.note (g : Gather) (index : Nat) (r : Response) : Gather :=
  { g with returned := g.returned ++ [(index, r.data)], failed := g.failed || !r.ok }

/-- What the reads returned, in read order. -/
def Gather.bytes (g : Gather) : List Byte :=
  (List.range g.total).flatMap fun k =>
    bytesOfWords (((g.returned.find? fun p => p.1 == k).map (·.2)).getD [])

/-- APPLY_WINDOWS (R11): two reads of 16 beats of the window table. -/
def execApplyWindows (s : State) : Host.Outcome State Fault Refusal :=
  match s.command.handed with
  | some .applyWindows =>
    if s.command.stopped then .next s
    else .next (startGather none (s.pageReads 0 2 16 .tableRead) s)
  | _ => .next s

/-- The location of a settings group in the control page (2.4). -/
def groupOffset (g : Fin 10) : Nat := if g.val = 9 then 0x0400 else 0x0100 + 64 * g.val

/-- APPLY_SETTINGS (R28): one read of 8 beats, or sixteen of 16 beats for ROUTES. -/
def execApplySettings (s : State) : Host.Outcome State Fault Refusal :=
  match s.command.handed with
  | some (.applySettings g) =>
    if s.command.stopped then .next s
    else if g.val = 9 then .next (startGather (some g) (s.pageReads (groupOffset g) 16 16 .settingsRead) s)
    else .next (startGather (some g) (s.pageReads (groupOffset g) 1 8 .settingsRead) s)
  | _ => .next s

end Sys2Proof.Machine
end

