-- ==== Sys2Proof/Machine/Settings.lean ====
section
/-! DEFINITION. The return of a settings group: its owner's validation and staging (R28 and the rules of
each group's owner). -/

namespace Sys2Proof.Machine

/-! ## What the other objects hold (R143, R151) -/

/-- The stream's applied settings or staged copy name a camera (R143). -/
def Stream.namesCamera (x : Stream) (k : Fin 8) : Bool :=
  x.camera == some k ||
    match x.staged with
    | some (some g) => g.camera == some k
    | some none => false
    | none => false

/-- Another stream's applied settings or staged copy name a camera (R143). -/
def State.cameraTaken (s : State) (n : Fin 4) (k : Fin 8) : Bool :=
  (List.finRange 4).any fun m => m != n && (s.stream m).namesCamera k

/-- Another line's applied settings or staged copy satisfy a test (R151). -/
def State.otherLine (s : State) (l : LineId) (test : LineSettings → Bool) : Bool :=
  (List.finRange 3).any fun m => m != l &&
    (test (s.line m).applied || match (s.line m).staged with | some g => test g | none => false)

/-! ## Staging, by group (R28) -/

/-- The TIMING group (R57). -/
def stageTiming (bs : List Byte) (s : State) : State :=
  match decodeTiming bs with
  | .error w => complete .invalid w s
  | .ok r => complete .accepted 0 { s with timing := { s.timing with stagedRate := some r } }

/-- The LABELS group (R103). -/
def stageLabels (bs : List Byte) (s : State) : State :=
  match decodeLabels bs with
  | .error w => complete .invalid w s
  | .ok g => complete .accepted 0 { s with label := { s.label with staged := some g } }

/-- A STREAM group (R143). -/
def stageStream (n : Fin 4) (bs : List Byte) (s : State) : State :=
  match decodeStream (s.cameraTaken n) bs with
  | .error w => complete .invalid w s
  | .ok g => complete .accepted 0 (s.setStream n { s.stream n with staged := some g })

/-- The group is refused in the line's present state (R152). -/
def Line.refuses (x : Line) (g : LineSettings) : Bool :=
  (x.function == .active || x.function == .halting) &&
    (g.rate != x.applied.rate || g.code != x.applied.code)

/-- A LINE group (R151, R152). -/
def stageLine (l : LineId) (bs : List Byte) (s : State) : State :=
  match decodeLine (fun n => s.otherLine l fun g => g.liveStream == some n) (s.otherLine l (·.carriesLabels)) bs with
  | .error w => complete .invalid w s
  | .ok g =>
    if (s.line l).refuses g then complete .conflict 0 s
    else complete .accepted 0 (s.setLine l { s.line l with staged := some g })

/-- The ROUTES group (R75). -/
def stageRoutes (bs : List Byte) (s : State) : State :=
  match decodeRoutes bs (List.finRange 256) [] with
  | .error w => complete .invalid w s
  | .ok rs => complete .accepted 0 { s with mixer := { s.mixer with staged := some rs } }

/-- The owner of a group has stopped, and takes no group any more (R62, R85, R127, R149, R175). -/
def State.ownerStopped (s : State) (g : Fin 10) : Bool :=
  match g.val with
  | 0 => s.timing.stopped
  | 1 => s.label.stopped
  | 2 => s.governor.stopped
  | 3 => s.governor.stopped
  | 4 => s.governor.stopped
  | 5 => s.governor.stopped
  | 6 => (s.line 0).stopped
  | 7 => (s.line 1).stopped
  | 8 => (s.line 2).stopped
  | _ => s.mixer.stopped

/-- A whole group is handed to its owner (R28). -/
def stageGroup (g : Fin 10) (bs : List Byte) (s : State) : State :=
  match g.val with
  | 0 => stageTiming bs s
  | 1 => stageLabels bs s
  | 2 => stageStream 0 bs s
  | 3 => stageStream 1 bs s
  | 4 => stageStream 2 bs s
  | 5 => stageStream 3 bs s
  | 6 => stageLine 0 bs s
  | 7 => stageLine 1 bs s
  | 8 => stageLine 2 bs s
  | _ => stageRoutes bs s

/-! ## The reads return (R11, R28) -/

/-- A further read of the command in execution has returned; once all of them have, `decided` gets their
bytes, or the command completes INVALID when one returned ERROR (R11, R28, log 15). -/
def gathered (index : Nat) (r : Response) (decided : Option (Fin 10) → List Byte → State → State)
    (s : State) : State :=
  if s.command.stopped then s
  else
    match s.command.gather with
    | none => s
    | some g =>
      let g := g.note index r
      if g.returned.length < g.total then { s with command := { s.command with gather := some g } }
      else if g.failed then complete .invalid 0xFFFE s
      else decided g.group g.bytes s

/-- The whole group has been read (R28). -/
def settingsGathered (group : Option (Fin 10)) (bs : List Byte) (s : State) : State :=
  match group with
  | some g => if s.ownerStopped g then s else stageGroup g bs s
  | none => s

/-- A settings read has returned. -/
def settingsReturned (i : Issued) (r : Response) (s : State) : State :=
  match i.purpose with
  | .settingsRead index => gathered index r settingsGathered s
  | _ => s

/-- The purpose of SETTINGS_READ_RETURN. -/
def Purpose.isSettingsRead : Purpose → Bool
  | .settingsRead _ => true
  | _ => false

/-- SETTINGS_READ_RETURN (R28). -/
def execSettingsReadReturn (response : Response) (s : State) : Host.Outcome State Fault Refusal :=
  internalReturn Purpose.isSettingsRead settingsReturned response s

end Sys2Proof.Machine
end

