-- ==== Sys2Proof/Machine/Windows.lean ====
section
/-! DEFINITION. The application of a window table and each owner's reaction to it (R11, R12). -/

namespace Sys2Proof.Machine

/-- Base and size of a window, absent for no window: what R12 compares. -/
def placeOf (w : Option WindowEntry) : Option (BitVec 64 × BitVec 32) := w.map fun e => (e.base, e.size)

/-- The writes of some purpose already issued count as cancelled when their responses return (R34, R125). -/
def markStale (wanted : Purpose → Bool) (s : State) : State :=
  let stale (i : Issued) : Issued := if wanted i.purpose then { i with stale := true } else i
  { s with path := { s.path with pool := mapTable (Option.map stale) s.path.pool } }

/-- The report unit's reaction to a REPORT window of another base or size (R12, R34). -/
def reportWindowChanged (s : State) : State :=
  markStale Purpose.isReportPost
    { s with report := { s.report with written := 0, consumed := 0, slot := 0 } }

/-- A label write that waits for its grant is a write of the old window: it is cancelled there (R18, R125,
log 35). -/
def stopWaitingLabel (s : State) : State :=
  let x := s.path.queues[labelQueue]
  s.setQueue labelQueue { x with waiting := x.waiting.map fun w => { w with stale := true } }

/-- The label unit's reaction to a LABEL window of another base or size (R12, R125). -/
def labelWindowChanged (s : State) : State :=
  postSettle (ringGone (stopWaitingLabel (markStale Purpose.isLabelWrite
    (s.setLabel { s.label with written := 0, consumed := 0, slot := 0 }))))

/-- The report unit's reaction to a new table (R12). One that has stopped has none (R37). -/
def reportReaction (old s : State) : State :=
  if s.report.stopped then s
  else if placeOf (old.ownedWindow .report) = placeOf (s.ownedWindow .report) then s else reportWindowChanged s

/-- The label unit's reaction to a new table (R12). One that has stopped has none (R127). -/
def labelReaction (old s : State) : State :=
  if s.label.stopped then s
  else if placeOf (old.ownedWindow .label) = placeOf (s.ownedWindow .label) then s else labelWindowChanged s

/-- The mixer's reaction to a new table (R71, R100). One that has stopped has none (R85, R101). -/
def mixerReaction (s : State) : State :=
  if s.mixer.stopped then s
  else if (s.ownedWindow .busOut).isSome then s else dropBusWrites s

/-- The governor's reaction to a new table (R147). One that has stopped has none (R149). The manual gives no order
for several streams: DESIGN CHOICE, stream 0 to 3, which is the order of their STREAM events (log 42). -/
def governorReaction (old s : State) : State :=
  if s.governor.stopped then s
  else (List.finRange 4).foldl (fun s n => streamWindowChanged n (old.codedWindow n) (s.codedWindow n) s) s

/-- The fault unit's reaction to a new table (R211), in NORMAL mode (R212). -/
def faultReaction (old s : State) : State :=
  if !s.isNormal then s
  else if placeOf (old.ownedWindow .meas) = placeOf (s.ownedWindow .meas) then s
  else if (s.ownedWindow .meas).isSome then measWindowMoved s else measWindowGone s

/-- A new table replaces the applied copy, with no parity error held in it, and each owner is told (R12). The order
in which the owners react is the model's: DESIGN CHOICE (log 42). -/
def applyTable (table : Vector WindowEntry 16) (s : State) : State :=
  let new := { s with path := { s.path with windows := table, parityBad := Vector.replicate 16 false } }
  faultReaction s (reportReaction s (governorReaction s (labelReaction s (mixerReaction new))))

/-- The whole table has been read: it is validated, and applied or refused (R11). -/
def tableGathered (_ : Option (Fin 10)) (bs : List Byte) (s : State) : State :=
  let table := windowTable bs
  match firstBadEntry s.controlPage [] table.toList with
  | some k => complete .invalid k s
  | none => complete .accepted 0 (applyTable table s)

/-- A table read has returned. -/
def tableReturned (i : Issued) (r : Response) (s : State) : State :=
  match i.purpose with
  | .tableRead index => if s.path.stopped then s else gathered index r tableGathered s
  | _ => s

/-- The purpose of WINDOW_TABLE_READ_RETURN. -/
def Purpose.isTableRead : Purpose → Bool
  | .tableRead _ => true
  | _ => false

/-- WINDOW_TABLE_READ_RETURN (R11, R12). -/
def execWindowTableReadReturn (response : Response) (s : State) : Host.Outcome State Fault Refusal :=
  internalReturn Purpose.isTableRead tableReturned response s

end Sys2Proof.Machine
end

