-- ==== Sys2Proof/Machine/Path.lean ====
section
/-! DEFINITION. The path unit: arrival and classification, interception, the memory-port arbiter, responses,
the entry into PASS-ONLY mode and reset (Chapter 1, R201). -/

namespace Sys2Proof.Machine

/-- The state with the path unit changed. -/
def State.setPath (s : State) (x : Path) : State := { s with path := x }

/-! ## Arrival (R2, R3) -/

/-- A request at the tail of the forward queue, counted in its tag's forwarded count (R2, R3). -/
def forwardRequest (r : Request) (s : State) : State :=
  let t := s.path.tags[r.tag.toFin]
  s.setPath { s.path with
    forward := s.path.forward ++ [r]
    tags := s.path.tags.set r.tag.toFin { t with forwarded := t.forwarded + 1, address := r.addr } }

/-- A read answered by interception, counted in its tag's intercepted count (R3, R15). -/
def interceptRead (r : Request) (beats : List Word) (s : State) : State :=
  let t := s.path.tags[r.tag.toFin]
  s.setPath { s.path with
    intercepted := s.path.intercepted ++ [{ tag := r.tag, beats := beats }]
    tags := s.path.tags.set r.tag.toFin { t with intercepted := t.intercepted + 1 } }

/-- A tag is outstanding (R3). -/
def TagRecord.outstanding (t : TagRecord) : Bool := 0 < t.forwarded || 0 < t.intercepted

/-- The byte address of a request (R1). -/
def requestByte (r : Request) : Nat := BeatAddr.byte r.addr

/-- The request is a read. -/
def requestReads (r : Request) : Bool :=
  match r.burst with
  | .read _ => true
  | .write _ => false

/-- The beats do not all lie in one 4 KiB page (R7). -/
def requestSpans (r : Request) : Bool := 4096 < requestByte r % 4096 + 8 * r.burst.beats

/-- The control page offset of a request whose first beat lies in the control page (R8). -/
def State.pageOffset (s : State) (r : Request) : Option Nat :=
  if s.controlPage ≤ requestByte r ∧ requestByte r < s.controlPage + 8192 then some (requestByte r - s.controlPage)
  else none

/-- The control page offset of a status-area read (R8, R10). -/
def State.statusOffset (s : State) (r : Request) : Option Nat :=
  match s.pageOffset r with
  | some o => if requestReads r && 0x1000 ≤ o && o ≤ 0x13FF then some o else none
  | none => none

/-- The handling of R10: a status-area read that does not span is intercepted, all else is forwarded. -/
def passThrough (r : Request) (s : State) : State :=
  match s.statusOffset r with
  | some o => if requestSpans r then forwardRequest r s else interceptRead r (s.statusBeats o r.burst.beats) s
  | none => forwardRequest r s

/-! ## Snoops (R8, R21) -/

/-- The snooped fields (R21). -/
inductive Snooped where
  | producer
  | reportConsumed
  | labelConsumed
  | gain (route : Fin 256)
  deriving DecidableEq, Repr

/-- The snooped field in the beat at a control page offset (R8). -/
def snoopedAt (offset : Nat) : Option Snooped :=
  if offset = 0x0E00 then some .producer
  else if offset = 0x0E08 then some .reportConsumed
  else if offset = 0x0E10 then some .labelConsumed
  else if 0x0400 ≤ offset then (toFin 256 ((offset - 0x0400) / 8)).map .gain
  else none

/-- A snooped value is handed to its owner (R21). -/
def handSnoop (f : Snooped) (v : Count16) (s : State) : State :=
  match f with
  | .producer => { s with command := { s.command with inbox := s.command.inbox ++ [v] } }
  | .reportConsumed => { s with report := { s.report with inbox := s.report.inbox ++ [v] } }
  | .labelConsumed => { s with label := { s.label with inbox := s.label.inbox ++ [v] } }
  | .gain k => { s with mixer := { s.mixer with gains := s.mixer.gains ++ [(k, v)] } }

/-- One beat of a control-page write at its offset (R21). -/
def snoopBeat (page offset : Nat) (b : Beat) (s : State) : State :=
  match snoopedAt offset with
  | none => s
  | some f =>
    match b.enables.getLsbD 0, b.enables.getLsbD 1 with
    | true, true => handSnoop f (BitVec.ofNat 16 b.data.toNat) s
    | false, false => s
    | _, _ => raiseFault .partialControlWrite (.address (BitVec.ofNat 36 (page + offset))) s

/-- Every beat of a control-page write, in order (R21). The manual gives no order for the faults of several partly
written fields: DESIGN CHOICE, the order of the beats, so that the last stands as the latest (R199, log 44). -/
def snoopBeats (page : Nat) : Nat → List Beat → State → State
  | _, [], s => s
  | offset, b :: bs, s => snoopBeats page (offset + 8) bs (snoopBeat page offset b s)

/-! ## Windows (R5, R6, R14) -/

/-- The tap of a write into a PICTURE window: a frame completion when the write includes the final beat of
its frame slot (R5, R105). -/
def pictureTap (w : WindowEntry) (offset beats : Nat) (s : State) : State :=
  let slotBytes := 4096 * w.perFrame.toNat
  let slot := offset / slotBytes
  let final := slotBytes * (slot + 1) - 8
  match toFin 8 w.object.toNat with
  | some camera =>
    if slot < w.size.toNat / w.perFrame.toNat && offset ≤ final && final < offset + 8 * beats then
      frameCompletion camera slot s
    else s
  | none => s

/-- The offsets of the enabled bytes of beats from an offset on (R129). -/
def writtenOffsets : Nat → List Beat → List Nat
  | _, [] => []
  | offset, b :: bs =>
    ((List.range 8).filter fun k => b.enables.getLsbD k).map (offset + ·) ++ writtenOffsets (offset + 8) bs

/-- The tap of a write into a CODED window (R5, R129, R130). -/
def codedTap (w : WindowEntry) (r : Request) (offset : Nat) (beats : List Beat) (s : State) : State :=
  match toFin 4 w.object.toNat with
  | some n =>
    if offset < w.ringBytes then payloadTap n w.ringBytes (writtenOffsets offset beats) s
    else if offset = w.ringBytes then
      match beats with
      | b :: _ => markerWrite n w.ringBytes r.addr b s
      | [] => s
    else s
  | none => s

/-- The read of a CODED window includes the hint beat (R14). -/
def readsHint (w : WindowEntry) (offset beats : Nat) : Bool :=
  w.ringBytes ≤ offset && offset ≤ w.ringBytes + 8 && w.ringBytes + 8 < offset + 8 * beats

/-- A read classified to a window (R6, R14). -/
def windowRead (w : WindowEntry) (r : Request) (beats : Nat) (s : State) : State :=
  let offset := requestByte r - w.first
  match w.kindOf, toFin 4 w.object.toNat with
  | .coded, some n =>
    if readsHint w offset beats then
      interceptRead r ((s.stream n).hintBeats (offset - w.ringBytes) beats) s
    else forwardRequest r s
  | _, _ => forwardRequest r s

/-- A write classified to a window (R5, R6). -/
def windowWrite (w : WindowEntry) (r : Request) (beats : List Beat) (s : State) : State :=
  let s := forwardRequest r s
  let offset := requestByte r - w.first
  match w.kindOf with
  | .none => s
  | .audioIn => s.setMixer (s.mixer.takeBurst w.object.toNat offset beats)
  | .picture => pictureTap w offset beats.length s
  | .coded => codedTap w r offset beats s
  | .busOut => raiseFault .ownedWrite (failAt r.addr) s
  | .label => raiseFault .ownedWrite (failAt r.addr) s
  | .report => raiseFault .ownedWrite (failAt r.addr) s
  | .meas => raiseFault .ownedWrite (failAt r.addr) s

/-! ## Classification (R7-R10) -/

/-- The request's window: the entry of lowest index that covers its first beat (R7). -/
def State.windowOf (s : State) (r : Request) : Option WindowEntry :=
  s.path.windows.toList.find? fun e => e.covers (requestByte r)

/-- Tests 3 and 4 of R7. -/
def classifyWindow (r : Request) (s : State) : State :=
  match s.windowOf r with
  | none => forwardRequest r s
  | some w =>
    match r.burst with
    | .read n => windowRead w r n s
    | .write beats => windowWrite w r beats s

/-- A control-page request at its offset (R8). -/
def controlPageRequest (r : Request) (offset : Nat) (s : State) : State :=
  match r.burst with
  | .read n =>
    if 0x1000 ≤ offset ∧ offset ≤ 0x13FF then interceptRead r (s.statusBeats offset n) s
    else forwardRequest r s
  | .write beats => snoopBeats s.controlPage offset beats (forwardRequest r s)

/-- The classification of R7, by its tests in order. -/
def classify (r : Request) (s : State) : State :=
  if requestSpans r then raiseFault .burstSpan (failAt r.addr) (forwardRequest r s)
  else
    match s.pageOffset r with
    | some o => controlPageRequest r o s
    | none => classifyWindow r s

/-- The enabled entries of the applied table in which a parity error is held, by index (R10). -/
def State.parityErrors (s : State) : List (Fin 16) :=
  (List.finRange 16).filter fun i => s.path.parityBad[i] && (s.path.windows[i]).enabled

/-- The entry a WINDOW_PARITY cause names, of those found (R201, log 6). -/
def parityEntry (found : List (Fin 16)) : Nat :=
  match found with
  | [i] => i.val
  | _ => ((found[Config.parityChoice found.length % found.length]?).map Fin.val).getD 0

/-- A request arrives (R2, R3, R7, R10). -/
def arrive (r : Request) (s : State) : State :=
  if (s.path.tags[r.tag.toFin]).outstanding then passThrough r (raiseFatal (.tagInUse r.tag) s)
  else if s.isNormal then
    if s.parityErrors.isEmpty then classify r s
    else passThrough r (raiseFatal (.windowParity (parityEntry s.parityErrors)) s)
  else passThrough r s

/-- FABRIC_REQUEST (R2). While the forward queue is full the fabric holds the request back: it has not
arrived, and nothing changes (log 10). -/
def execFabricRequest (request : Request) (upsets : List Upset) (s : State) :
    Host.Outcome State Fault Refusal :=
  if request.wellFormed then
    if s.path.forward.length < Config.forwardPlaces then .next (arrive request (strikes upsets s))
    else .next s
  else .refused .malformedRequest

/-- INTERCEPTED_READ_RESPONSE (R15): an intercepted read with the tag is answered OK. Of two that wait under
one tag, which only TAG_IN_USE makes, the manual does not say which is answered: DESIGN CHOICE, the oldest
(log 37). -/
def execInterceptedReadResponse (tag : BitVec 6) (s : State) : Host.Outcome State Fault Refusal :=
  match s.path.intercepted.find? fun x => x.tag == tag with
  | none => .next s
  | some x =>
    let t := s.path.tags[tag.toFin]
    .next (s.setPath { s.path with
      intercepted := s.path.intercepted.erase x
      tags := s.path.tags.set tag.toFin { t with intercepted := t.intercepted - 1 }
      fabricOut := some { tag := tag.setWidth 8, ok := true, data := x.beats } })

/-! ## The arbiter (R16-R18) -/

/-- The requester whose turn it is: the first with an eligible request from the turn position on (R17). -/
def State.nextInternal (s : State) : Option (Fin 8) :=
  ((List.finRange 8).map fun k => s.path.turn + k).find? s.eligible

/-- The oldest forwarded request is granted (R17). -/
def grantForwarded (r : Request) (rest : List Request) (s : State) : State :=
  let closer (x : RequestQueue) : RequestQueue :=
    { x with waiting := x.waiting.map fun w => { w with ahead := w.ahead - 1 } }
  s.setPath { s.path with
    forward := rest
    queues := mapTable closer s.path.queues
    memoryOut := some { tag := r.tag.setWidth 8, request := { addr := r.addr, burst := r.burst } } }

/-- A request lies within a part-owned window (R18). -/
def State.insideOwned (s : State) (k : WindowKind) (r : MemRequest) : Bool :=
  match s.ownedWindow k with
  | some w => w.first ≤ BeatAddr.byte r.addr && BeatAddr.byte r.addr + 8 * r.burst.beats ≤ w.limit
  | none => false

/-- A write lies on the completion code and result fields of a record of the command ring (R18, 11.2). -/
def State.onCompletion (s : State) (r : MemRequest) : Bool :=
  (List.range Config.commandSlots).any fun k =>
    BeatAddr.byte r.addr == s.controlPage + 0x0C00 + 32 * k &&
      match r.burst with
      | .write [b] => b.enables == 0xF4
      | _ => false

/-- The address check of R18 on an internal request at its grant. A line unit makes no writes. -/
def State.passesCheck (s : State) (p : Purpose) (r : MemRequest) : Bool :=
  match r.burst with
  | .read _ => true
  | .write _ =>
    match p with
    | .completionWrite _ => s.onCompletion r
    | .reportPost _ => s.insideOwned .report r
    | .busWrite _ _ => s.insideOwned .busOut r
    | .labelWrite _ => s.insideOwned .label r
    | .measWrite _ _ _ => s.insideOwned .meas r
    | .recordRead => false
    | .tableRead _ => false
    | .settingsRead _ => false
    | .payloadRead _ _ _ => false
    | .fileRead _ _ _ => false
    | .descriptorFetch _ _ => false

/-- What a requester does with a cancelled write (R34, R99, R125, R211). -/
def cancelled (p : Purpose) (s : State) : State :=
  match p with
  | .reportPost _ => postCancelled s
  | .busWrite frame _ => busWriteDone frame s
  | .labelWrite _ => labelLanded s
  | .measWrite serial l again => blockCancelled serial l again s
  | .completionWrite _ => finishCommand s
  | .recordRead => s
  | .tableRead _ => s
  | .settingsRead _ => s
  | .payloadRead _ _ _ => s
  | .fileRead _ _ _ => s
  | .descriptorFetch _ _ => s

/-- The free tag a grant takes: the first free one from `pick` on (R18, log 9). -/
def State.freeTagFrom (s : State) (pick : BitVec 5) : Option (Fin 32) :=
  ((List.finRange 32).map fun k => pick.toFin + k).find? fun k => (s.path.pool[k]).isNone

/-- The turn passes on from a requester, whose waiting request is gone (R16, R17). -/
def passTurn (q : Fin 8) (s : State) : State :=
  let x := s.path.queues[q]
  (s.setQueue q { x with waiting := none }).setPath
    { (s.setQueue q { x with waiting := none }).path with turn := q + 1, lockout := 0 }

/-- An internal request is issued under a tag of the pool (R18). -/
def issue (q : Fin 8) (k : Fin 32) (w : Waiting) (s : State) : State :=
  let s := passTurn q s
  presentNext q (s.setPath { s.path with
    pool := s.path.pool.set k (some { purpose := w.purpose, request := w.request, stale := false })
    memoryOut := some { tag := BitVec.ofNat 8 (64 + k.val), request := w.request } })

/-- A write that is not issued is returned to its requester as cancelled (R18). -/
def cancelWaiting (q : Fin 8) (w : Waiting) (s : State) : State :=
  presentNext q (cancelled w.purpose (passTurn q s))

/-- A waiting request is issued at its grant: it passes the check of R18 and no new table has made it a write
of an old window (R125). -/
def State.issues (s : State) (w : Waiting) : Bool := !w.stale && s.passesCheck w.purpose w.request

/-- One grant to the requester whose turn it is, and whether the arbiter grants again (R17, R18). -/
def grantInternal (q : Fin 8) (pick : BitVec 5) (s : State) : State × Bool :=
  match s.path.queues[q].waiting, s.freeTagFrom pick with
  | some w, some k =>
    if s.issues w then (issue q k w s, false) else (cancelWaiting q w s, true)
  | _, _ => (s, false)

/-- The grants of one acceptance (R17): again after a cancelled write, for at most `n` grants. -/
def arbitrate (pick : BitVec 5) : Nat → State → State
  | 0, s => s
  | n + 1, s =>
    match s.nextInternal, s.path.forward with
    | some q, r :: rest =>
      if s.path.lockout = Config.lockoutLimit then
        match grantInternal q pick s with
        | (s', true) => arbitrate pick n s'
        | (s', false) => s'
      else setLockout (s.path.lockout + 1) (grantForwarded r rest s)
    | some q, [] =>
      match grantInternal q pick s with
      | (s', true) => arbitrate pick n s'
      | (s', false) => s'
    | none, r :: rest => setLockout 0 (grantForwarded r rest s)
    | none, [] => setLockout 0 s

/-- More grants than one acceptance can use: a request can be cancelled only if it waits or has been made
with a fixed address, since one presented afresh takes its address from the windows that stand. -/
def State.grantBound (s : State) : Nat := 16 + (s.path.queues.toList.map fun x => x.later.length).sum

/-- MEMORY_PORT_ACCEPTANCE (R17). -/
def execMemoryPortAcceptance (pick : BitVec 5) (s : State) : Host.Outcome State Fault Refusal :=
  .next (arbitrate pick s.grantBound (s.setPath { s.path with memoryOut := none }))

/-! ## Memory responses (R2, R3, R18) -/

/-- A response with a fabric tag (R2, R3). -/
def forwardedReturned (k : Fin 64) (r : Response) (s : State) : State :=
  let t := s.path.tags[k]
  if t.forwarded = 0 then raiseFatal (.unknownTag r.tag) s
  else
    let s := s.setPath { s.path with
      tags := s.path.tags.set k { t with forwarded := t.forwarded - 1 }
      fabricOut := some r }
    if r.ok then s else raiseFault .memoryError (failAt t.address) s

/-- What each requester does with its response (R18). -/
def internalReturned (i : Issued) (r : Response) (s : State) : State :=
  match i.purpose with
  | .recordRead => recordReturned i r s
  | .completionWrite _ => completionReturned i r s
  | .tableRead _ => tableReturned i r s
  | .settingsRead _ => settingsReturned i r s
  | .reportPost _ => postReturned i r s
  | .busWrite _ _ => busReturned i r s
  | .labelWrite _ => labelReturned i r s
  | .payloadRead _ _ _ => payloadReturned i r s
  | .fileRead _ _ _ => fileReturned i r s
  | .descriptorFetch _ _ => descriptorReturned i r s
  | .measWrite _ _ _ => blockReturned i r s

/-- MEMORY_RESPONSE (R3, R18). A response to a request of the part's own is handed to its requester. -/
def execMemoryResponse (response : Response) (s : State) : Host.Outcome State Fault Refusal :=
  if response.wellFormed then
    match toFin 64 response.tag.toNat with
    | some k => .next (forwardedReturned k response s)
    | none =>
      if (s.heldBy response.tag).isSome then internalReturn (fun _ => true) internalReturned response s
      else .next (raiseFatal (.unknownTag response.tag) s)
  else .refused .malformedResponse

/-! ## PASS-ONLY entry and reset (R18, R19, R201) -/

/-- A block takes the entry into PASS-ONLY mode: it stops, and its waiting requests are withdrawn (R18, R201,
R27, R37, R62, R85, R127, R149, R175, R196). -/
def stopBlock (b : Block) (s : State) : State :=
  match b with
  | .path =>
    s.setPath { s.path with stopped := true, lockout := 0, queues := Vector.replicate 8 RequestQueue.empty }
  | .command => withdraw commandQueue { s with command := { s.command with stopped := true } }
  | .report => withdraw reportQueue { s with report := { s.report with stopped := true } }
  | .timing => { s with timing := { s.timing with stopped := true } }
  | .mixer => withdraw mixerQueue { s with mixer := { s.mixer with stopped := true } }
  | .label => withdraw labelQueue { s with label := { s.label with stopped := true } }
  | .governor => { s with governor := { s.governor with stopped := true } }
  | .line l => withdraw (lineQueue l) (settleLine l (s.setLine l { s.line l with stopped := true }))

/-- PASS_ONLY_ENTRY (R201): there is an entry to take only while the mode is PASS-ONLY. -/
def execPassOnlyEntry (block : Block) (s : State) : Host.Outcome State Fault Refusal :=
  if s.isNormal then .next s else .next (stopBlock block s)

/-- RESET (R19, R39-R41, R63, R86, R102, R128, R150, R176, R198, R213): every block is at its reset state
and the straps are read. -/
def execReset (cpb : BitVec 12) (s : State) : Host.Outcome State Fault Refusal :=
  .next { State.reset with path := { Path.reset with cpb := cpb }, pending := s.pending }

end Sys2Proof.Machine
end

