-- ==== Sys2Proof/Machine/Dispatch.lean ====
section
/-! DEFINITION. exec: one direct call of a meaning for every command. -/

namespace Sys2Proof.Machine

def exec (i : Instr) (s : State) : Host.Outcome State Fault Refusal :=
  match i with
  | .fabricRequest request upsets => Sys2Proof.Machine.execFabricRequest request upsets s
  | .memoryPortAcceptance pick => Sys2Proof.Machine.execMemoryPortAcceptance pick s
  | .memoryResponse response => Sys2Proof.Machine.execMemoryResponse response s
  | .reset cpb => Sys2Proof.Machine.execReset cpb s
  | .producerCountWrite => Sys2Proof.Machine.execProducerCountWrite s
  | .reportConsumedCountWrite => Sys2Proof.Machine.execReportConsumedCountWrite s
  | .labelConsumedCountWrite => Sys2Proof.Machine.execLabelConsumedCountWrite s
  | .gainFieldWrite => Sys2Proof.Machine.execGainFieldWrite s
  | .passOnlyEntry block => Sys2Proof.Machine.execPassOnlyEntry block s
  | .recordReadReturn response => Sys2Proof.Machine.execRecordReadReturn response s
  | .completionWriteReturn response => Sys2Proof.Machine.execCompletionWriteReturn response s
  | .applyWindows => Sys2Proof.Machine.execApplyWindows s
  | .windowTableReadReturn response => Sys2Proof.Machine.execWindowTableReadReturn response s
  | .applySettings => Sys2Proof.Machine.execApplySettings s
  | .settingsReadReturn response => Sys2Proof.Machine.execSettingsReadReturn response s
  | .jamTimecode => Sys2Proof.Machine.execJamTimecode s
  | .clipMark => Sys2Proof.Machine.execClipMark s
  | .streamFlush => Sys2Proof.Machine.execStreamFlush s
  | .lineStart => Sys2Proof.Machine.execLineStart s
  | .lineHalt => Sys2Proof.Machine.execLineHalt s
  | .lineClear => Sys2Proof.Machine.execLineClear s
  | .lineResume => Sys2Proof.Machine.execLineResume s
  | .sendList => Sys2Proof.Machine.execSendList s
  | .measureStart => Sys2Proof.Machine.execMeasureStart s
  | .measureStop => Sys2Proof.Machine.execMeasureStop s
  | .reportPost => Sys2Proof.Machine.execReportPost s
  | .reportPostWriteReturn response => Sys2Proof.Machine.execReportPostWriteReturn response s
  | .referencePulse ref => Sys2Proof.Machine.execReferencePulse ref s
  | .freeRunTimer ref => Sys2Proof.Machine.execFreeRunTimer ref s
  | .lossTimer ref => Sys2Proof.Machine.execLossTimer ref s
  | .markEdge input high clocks => Sys2Proof.Machine.execMarkEdge input high clocks s
  | .mixerAudioBoundary upsets => Sys2Proof.Machine.execMixerAudioBoundary upsets s
  | .busOutWriteReturn response => Sys2Proof.Machine.execBusOutWriteReturn response s
  | .labelVideoBoundary upsets => Sys2Proof.Machine.execLabelVideoBoundary upsets s
  | .labelPost upsets => Sys2Proof.Machine.execLabelPost upsets s
  | .labelWriteReturn response => Sys2Proof.Machine.execLabelWriteReturn response s
  | .governorVideoBoundary => Sys2Proof.Machine.execGovernorVideoBoundary s
  | .lineAudioBoundary line => Sys2Proof.Machine.execLineAudioBoundary line s
  | .frameEnd line => Sys2Proof.Machine.execFrameEnd line s
  | .payloadReadReturn response => Sys2Proof.Machine.execPayloadReadReturn response s
  | .fileReadReturn response => Sys2Proof.Machine.execFileReadReturn response s
  | .descriptorFetchReturn response => Sys2Proof.Machine.execDescriptorFetchReturn response s
  | .los line => Sys2Proof.Machine.execLos line s
  | .codeViolation line => Sys2Proof.Machine.execCodeViolation line s
  | .candidateFrame line upsets => Sys2Proof.Machine.execCandidateFrame line upsets s
  | .lockedFrame line upsets => Sys2Proof.Machine.execLockedFrame line upsets s
  | .measurementTimer => Sys2Proof.Machine.execMeasurementTimer s
  | .measWriteReturn response => Sys2Proof.Machine.execMeasWriteReturn response s
  | .interceptedReadResponse tag => Sys2Proof.Machine.execInterceptedReadResponse tag s
  | .symbolReceived line level => Sys2Proof.Machine.execSymbolReceived line level s
  | .symbolSent line => Sys2Proof.Machine.execSymbolSent line s

end Sys2Proof.Machine
end

