-- ==== Sys2Proof/Safety.lean ====
section
/-! DEFINITION. What counts as a sound state of the part, and the terms the statements are made in. -/

namespace Sys2Proof.Machine

/-! ## Frames -/

/-- The parts of State. -/
inductive Part where
  | path
  | command
  | report
  | timing
  | mixer
  | label
  | governor
  | lines
  | fault
  | pending
  deriving DecidableEq, Repr

/-- One part is the same in two states. -/
def Part.same (p : Part) (s t : State) : Prop :=
  match p with
  | .path => t.path = s.path
  | .command => t.command = s.command
  | .report => t.report = s.report
  | .timing => t.timing = s.timing
  | .mixer => t.mixer = s.mixer
  | .label => t.label = s.label
  | .governor => t.governor = s.governor
  | .lines => t.lines = s.lines
  | .fault => t.fault = s.fault
  | .pending => t.pending = s.pending

/-- Every part not named is unchanged from s to t. -/
structure ChangesOnly (ps : List Part) (s t : State) : Prop where
  same : ∀ p : Part, p ∉ ps → p.same s t

/-- Every other line is unchanged from s to t. -/
structure OtherLinesSame (l : LineId) (s t : State) : Prop where
  same : ∀ m : LineId, m ≠ l → t.line m = s.line m

/-! ## Arrival of a fabric request (R2, R3, R10) -/

/-- A request R1 admits arrives with some upsets at a part whose forward queue has a place, and s is the
state with the upsets in it. -/
def Arrives (r : Request) (us : List Upset) (s₀ s : State) : Prop :=
  r.wellFormed = true ∧ s₀.path.forward.length < 32 ∧ s = strikes us s₀

/-- The tag of a request is not outstanding (R3). -/
def TagFree (r : Request) (s : State) : Prop :=
  (s.path.tags[r.tag.toFin]).forwarded = 0 ∧ (s.path.tags[r.tag.toFin]).intercepted = 0

/-- The request reveals no fatal cause, and the mode is NORMAL: R7 classifies it. -/
def Classified (r : Request) (s : State) : Prop :=
  s.isNormal = true ∧ TagFree r s ∧ s.parityErrors = []

/-- A read whose first beat lies in the status area and which does not span a page (R8, R10). -/
def StatusRead (r : Request) (s : State) : Prop :=
  (∃ n, r.burst = .read n) ∧ requestSpans r = false ∧
    s.controlPage + 0x1000 ≤ requestByte r ∧ requestByte r ≤ s.controlPage + 0x13FF

/-- The first beat of a request lies in the control page (R8). -/
def InControlPage (r : Request) (s : State) : Prop :=
  s.controlPage ≤ requestByte r ∧ requestByte r < s.controlPage + 8192

/-- w is the window of a request that reaches test 3 of R7. -/
def WindowIs (w : WindowEntry) (r : Request) (s : State) : Prop :=
  requestSpans r = false ∧ ¬ InControlPage r s ∧ s.windowOf r = some w

/-- The state with a request at the tail of the forward queue under a tag that was free, and nothing else
changed (R2, R3). -/
def forwardedState (r : Request) (s : State) : State :=
  let counted : TagRecord := { forwarded := 1, intercepted := 0, address := r.addr }
  { s with path := { s.path with
      forward := s.path.forward ++ [r], tags := s.path.tags.set r.tag.toFin counted } }

/-- The state with a read waiting for its answer of some beats under a tag that was free, and nothing else
changed (R3, R15). -/
def interceptedState (r : Request) (beats : List Word) (s : State) : State :=
  let counted : TagRecord :=
    { forwarded := 0, intercepted := 1, address := (s.path.tags[r.tag.toFin]).address }
  { s with path := { s.path with
      intercepted := s.path.intercepted ++ [{ tag := r.tag, beats := beats }]
      tags := s.path.tags.set r.tag.toFin counted } }

/-- The state with a nonfatal fault of one class taken and its FAULT event offered, and nothing else changed
(R199). -/
def faultedState (k : Fin 8) (a : FailAddress) (s : State) : State :=
  let class' : ClassRecord := { latest := a, count := (s.fault.classes[k]).count + 1 }
  let event : Record :=
    { object := k.val, repeats := 1, timecode := s.timing.timecode, audioCount := s.timing.audioCount,
      detail := .fault a 1 }
  { s with
    fault := { s.fault with classes := s.fault.classes.set k class' }
    report := { s.report with queue := takeEvent event s.report.queue } }

/-- The address a request carries, as a failing address (R199, R215). -/
def requestAddress (r : Request) : FailAddress := .address (BitVec.ofNat 36 (8 * r.addr.toNat))

/-- The beat of a write at a control page offset, for a write whose first beat is at another. -/
def beatAt (beats : List Beat) (offset wanted : Nat) : Option Beat :=
  if offset ≤ wanted then beats[(wanted - offset) / 8]? else none

/-- The value a fully enabled 16-bit field of a beat hands over (R21). -/
def fieldValue (b : Option Beat) : List Count16 :=
  match b with
  | some b => if b.enables.toNat % 4 = 3 then [BitVec.ofNat 16 b.data.toNat] else []
  | none => []

/-- A 16-bit field of a beat is written with one of its two bytes enabled (R21). -/
def fieldPartly (b : Option Beat) : Bool :=
  match b with
  | some b => b.enables.toNat % 4 == 1 || b.enables.toNat % 4 == 2
  | none => false

/-- The control page offsets of the snooped fields (R21). -/
def snoopedOffsets : List Nat := (List.range 256).map (fun k => 0x0400 + 8 * k) ++ [0x0E00, 0x0E08, 0x0E10]

/-! ## Structures the part writes (R214, 11.3, 11.4) -/

/-- The n bytes of a structure at an offset hold a value, in as many bits as they have, least significant first
(R214). -/
def Holds (bs : List Byte) (offset n v : Nat) : Prop := field bs offset n = v % 256 ^ n

/-- The 4 bytes of a structure at an offset hold a timecode (11.2). -/
def ShowsTimecode (bs : List Byte) (offset : Nat) (x : Timecode) : Prop :=
  Holds bs offset 1 x.ff ∧ Holds bs (offset + 1) 1 x.ss ∧ Holds bs (offset + 2) 1 x.mm ∧
    Holds bs (offset + 3) 1 x.hh

/-! ## The status area (R38, 11.6) -/

/-- The field of n bytes at a control page offset of the status area shows a value, in as many bits as it has
(11.6). -/
def State.Shows (s : State) (offset n v : Nat) : Prop :=
  Holds s.statusBytes (offset - 0x1000) n v

/-! ## Taps (R5, R66, R129) -/

/-- The samples in a write into an AUDIO_IN window whose first beat is at an offset from the window's base, in
the order they are taken: source, slot, index and value of each container with its four enables set, in the
first 192 bytes of a slot (R5, R66). -/
def tappedSamples (first offset : Nat) (beats : List Beat) : List (Fin 64 × Nat × Fin 48 × Sample) :=
  beats.zipIdx.flatMap fun p =>
    let o := offset + 8 * p.2
    [0, 1].filterMap fun half =>
      match toFin 64 (first + o / 2048), toFin 48 (o % 256 / 4 + half) with
      | some x, some i =>
        if o % 256 < 192 ∧ p.1.enables.toNat / 16 ^ half % 16 = 15 then
          some (x, o % 2048 / 256, i, BitVec.ofNat 24 (p.1.data.toNat / 2 ^ (32 * half)))
        else none
      | _, _ => none

/-- The ring offsets of the bytes a write enables (R129). -/
def enabledOffsets (offset : Nat) (beats : List Beat) : List Nat :=
  beats.zipIdx.flatMap fun p =>
    ((List.range 8).filter fun k => p.1.enables.getLsbD k).map fun k => offset + 8 * p.2 + k

/-! ## Requests of the part's own (R16) -/

/-- The queue of a requester that had none, once it has made some requests in order: the first waits, behind
what is in the forward queue. -/
def queueOf (ahead : Nat) : List (Purpose × MemRequest) → RequestQueue
  | [] => { waiting := none, later := [] }
  | m :: rest =>
    { waiting := some { purpose := m.1, request := m.2, ahead := ahead, stale := false }
      later := rest.map fun x => { purpose := x.1, fixed := some x.2 } }

/-- No clip record holds a parity error (R126). -/
def State.ClipsGood (s : State) : Prop := ∀ (j : Fin 32) (d : Clip), s.label.clips[j] = some d → d.parityBad = false

/-- Every CLOSED record that is still held keeps its ring done flag from s to t (R122, R125). -/
def RingDoneKept (s t : State) : Prop :=
  ∀ (j : Fin 32) (c c' : Clip) (x x' : Closing), s.label.clips[j] = some c → c.closing = some x →
    t.label.clips[j] = some c' → c'.closing = some x' → x'.ringDone = x.ringDone

/-- The record an event makes at a queue's entry, with the timecode and the audio frame counter that stand
(R30). -/
def State.eventRecord (s : State) (object : Nat) (d : Detail) : Record :=
  { object := object, repeats := 1, timecode := s.timing.timecode, audioCount := s.timing.audioCount,
    detail := d }

/-! ## Frame starts (R160-R166, R168, R173) -/

/-- The requests of a line from s to t, in the order it makes them: where none waited and none is to come, and
the mode is NORMAL, its queue holds exactly these (R16). -/
def LineRequests (l : LineId) (requests : List (Purpose × MemRequest)) (s t : State) : Prop :=
  s.isNormal = true → s.path.queues[lineQueue l] = { waiting := none, later := [] } →
    t.path.queues[lineQueue l] = queueOf s.path.forward.length requests

/-- FILE is decided for the loaded descriptor d of line l, standing as x in the state s, with t after (R166). With
its last bytes reserved the list is ending, ends with ERROR at a follower no descriptor may have, or fetches the
follower (R173). How the beats are divided among the reads is the model's choice (log 54). -/
def FileDecided (l : LineId) (x : Line) (d : Descriptor) (s t : State) : Prop :=
  let offset := x.list.reserved
  let length := min 508 (d.length - offset)
  let whole := offset + length = d.length
  let follower := if d.chain then d.next else x.list.current + 32
  let reads := coverReads (d.address + offset) length
  let pieces := reads.zipIdx.map fun q => (Purpose.fileRead l x.nextJob q.2, q.1)
  let next : Decided :=
    { kind := .file, tag := d.tag.toNat, position := BitVec.ofNat 32 offset, isPartial := false, key := false,
      last := d.last && decide whole, payload := .waiting x.nextJob }
  let job : ReadJob :=
    { id := x.nextJob, stream := none, serial := x.list.serial, lead := (d.address + offset) % 8,
      length := length, total := reads.length, returned := [], failed := false, discarded := false }
  let reserved : SendList := { x.list with reserved := offset + length }
  (t.line l).next = some next ∧ (t.line l).jobs = x.jobs ++ [job] ∧ t.governor = s.governor ∧
    (¬ whole → (t.line l).list = reserved ∧ t.report = s.report ∧ LineRequests l pieces s t) ∧
    (whole → d.last = true → (t.line l).list = { reserved with ending := true } ∧ t.report = s.report ∧
      LineRequests l pieces s t) ∧
    (whole → d.last = false → follower % 32 ≠ 0 ∨ 2 ^ 36 ≤ follower →
      (t.line l).list = { reserved with
        state := .none, loaded := none, ending := false, resumePending := false, fetching := none } ∧
      t.report = (offer l.val (.sendList .error x.list.current) s).report ∧ LineRequests l pieces s t) ∧
    (whole → d.last = false → follower % 32 = 0 → follower < 2 ^ 36 →
      (t.line l).list = { reserved with
        current := follower, loaded := none, fetching := some (x.nextJob + 1) } ∧
      t.report = s.report ∧
      LineRequests l (pieces ++ [(.descriptorFetch l (x.nextJob + 1),
        { addr := beatOf follower, burst := .read 4 })]) s t)

/-- The decision falls to FILE, on a RUNNING list with a loaded descriptor that has bytes not reserved, or else
to FILL (R161). -/
def FileOrFillDecided (l : LineId) (x : Line) (s t : State) : Prop :=
  match x.list.loaded with
  | some d =>
    if x.list.state = .running ∧ x.list.reserved < d.length then FileDecided l x d s t
    else (t.line l).next = some Decided.fill ∧ (t.line l).jobs = x.jobs ∧ (t.line l).list = x.list ∧
      t.governor = s.governor ∧ t.report = s.report ∧ LineRequests l [] s t
  | none => (t.line l).next = some Decided.fill ∧ (t.line l).jobs = x.jobs ∧ (t.line l).list = x.list ∧
      t.governor = s.governor ∧ t.report = s.report ∧ LineRequests l [] s t

/-- LIVE is decided on the claim granted for the head picture p of stream n under the window w (R135, R165). How the
beats are divided among the reads is the model's choice (log 54). -/
def LiveDecided (l : LineId) (x : Line) (n : Fin 4) (w : WindowEntry) (p : Picture) (rest : List Picture)
    (s t : State) : Prop :=
  let y := s.stream n
  let length := min 508 p.unsent
  let ring := w.ringBytes
  let offset := (p.start + (p.length - p.unsent)) % ring
  let reads :=
    if offset + length ≤ ring then coverReads (w.first + offset) length
    else coverReads (w.first + offset) (ring - offset) ++ coverReads w.first (offset + length - ring)
  let next : Decided :=
    { kind := .live, tag := n.val, position := p.number, isPartial := false, key := p.key,
      last := length == p.unsent, payload := .waiting x.nextJob }
  let job : ReadJob :=
    { id := x.nextJob, stream := some n, serial := 0, lead := (w.first + offset) % 8, length := length,
      total := reads.length, returned := [], failed := false, discarded := false }
  let claimed : Stream :=
    { y with
      pictures := { p with state := .sending } :: rest
      claim := some { picture := p.number, length := length, isVoid := false } }
  (t.line l).next = some next ∧ (t.line l).jobs = x.jobs ++ [job] ∧ (t.line l).list = x.list ∧
    t.governor = { s.governor with streams := s.governor.streams.set n claimed } ∧ t.report = s.report ∧
    LineRequests l (reads.zipIdx.map fun q => (Purpose.payloadRead l x.nextJob q.2, q.1)) s t

/-- The next-frame buffer of line l, standing as x in the state s with its buffer empty, takes the first kind whose
condition holds, with t after (R161, R163-R166). -/
def FrameDecided (l : LineId) (x : Line) (s t : State) : Prop :=
  if x.applied.carriesLabels = true ∧ x.labelSent = false ∧ s.label.uplink ≠ [] ∧ s.label.stopped = false then
    let copies := s.label.uplink.take 8
    let told := postSettle { s with label := { s.label with uplink := s.label.uplink.drop 8 } }
    (t.line l).next = some
        { kind := .label, tag := copies.length, position := 0, isPartial := false, key := false, last := false,
          payload := .ready (copies.flatMap fun c => c.take 60) } ∧
      (t.line l).labelSent = true ∧ (t.line l).jobs = x.jobs ∧ (t.line l).list = x.list ∧
      t.governor = s.governor ∧ t.label = told.label ∧ t.report = told.report ∧ LineRequests l [] s t
  else
    (t.line l).labelSent = x.labelSent ∧ t.label = s.label ∧
    match x.applied.liveStream with
    | none => FileOrFillDecided l x s t
    | some n =>
      if s.governor.stopped then FileOrFillDecided l x s t
      else
        match (s.stream n).notices, s.codedWindow n, (s.stream n).claim, (s.stream n).pictures with
        | first :: rest, _, _, _ =>
          let notices := first :: rest
          let given : Stream := { s.stream n with notices := [] }
          (t.line l).next = some
              { kind := .skip, tag := n.val, position := first.first, isPartial := notices.any (·.isPartial),
                key := false, last := false,
                payload := .ready (notices.flatMap fun y =>
                  beBytes 4 y.first.toNat ++ beBytes 4 y.last.toNat ++
                    [if y.isPartial then 1 else 0, 0, 0, 0]) } ∧
            (t.line l).jobs = x.jobs ∧ (t.line l).list = x.list ∧
            t.governor = { s.governor with streams := s.governor.streams.set n given } ∧
            t.report = s.report ∧ LineRequests l [] s t
        | [], some w, none, p :: rest =>
          if p.state = .corrupt then FileOrFillDecided l x s t else LiveDecided l x n w p rest s t
        | _, _, _, _ => FileOrFillDecided l x s t

/-- A frame start of line l, standing as x in the state s, with t after (R158, R160, R168, R204): the frame chosen
takes the sequence, which advances, and carries this audio frame counter; with the next-frame buffer left empty
a frame is decided for it. While the measurement is ACTIVE the frame sent is counted by its kind, and with it an
underrun slot. -/
def FrameStarted (l : LineId) (x : Line) (count : Count32) (s t : State) : Prop :=
  let audio := x.audioDue = true ∧ x.applied.buses ≠ []
  let waits := ∃ d j, x.next = some d ∧ d.payload = .waiting j
  let kept := ∃ d, x.next = some d ∧ d.payload ≠ .failed ∧ (audio ∨ ∃ j, d.payload = .waiting j)
  let sent (d : Decided) (payload : List Byte) : TxFrame :=
    { kind := d.kind, last := d.last, sent := 0,
      bytes := frameBytes d.kind.code x.periodUnlocked d.isPartial d.key d.last l x.sequence count d.tag
        d.position payload }
  (t.line l).sequence = x.sequence + 1 ∧ (t.line l).newPeriod = false ∧ (t.line l).next ≠ none ∧
    (audio → (t.line l).audioDue = false ∧ (t.line l).tx = some
      (sent (Decided.plain .audio x.applied.buses.length (s.mixer.held[(0 : Fin 16)]).frame (.ready []))
        (x.applied.buses.flatMap fun b =>
          (s.mixer.held[b]).samples.toList.flatMap fun y => beBytes 3 y.toNat)) ∧
      (∀ d, x.next = some d → d.payload ≠ .failed → (t.line l).next = some d)) ∧
    (¬ audio → (t.line l).audioDue = x.audioDue ∧
      (∀ d bytes, x.next = some d → d.payload = .ready bytes → (t.line l).tx = some (sent d bytes)) ∧
      (x.next = none ∨ (∃ d, x.next = some d ∧ d.payload = .failed) →
        (t.line l).tx = some (sent Decided.fill [])) ∧
      (∀ d j, x.next = some d → d.payload = .waiting j →
        (t.line l).tx = some (sent Decided.fill []) ∧ (t.line l).next = some d)) ∧
    (¬ kept → FrameDecided l x s t) ∧
    (kept → (t.line l).labelSent = x.labelSent ∧ (t.line l).jobs = x.jobs ∧ (t.line l).list = x.list ∧
      t.label = s.label ∧ t.governor = s.governor ∧ t.report = s.report ∧ LineRequests l [] s t) ∧
    (∀ f, (t.line l).tx = some f →
      let u := s.fault.totals[l]
      let isUnderrun := ¬ audio ∧ waits
      let more (k : FrameKind) : Count32 := if f.kind = k then 1 else 0
      (s.isNormal = true → s.fault.state = .active → ∀ v, v = t.fault.totals[l] →
        v.fill = u.fill + more .fill ∧ v.audio = u.audio + more .audio ∧ v.live = u.live + more .live ∧
        v.skip = u.skip + more .skip ∧ v.label = u.label + more .label ∧ v.file = u.file + more .file ∧
        (isUnderrun → v.underruns = u.underruns + 1) ∧ (¬ isUnderrun → v.underruns = u.underruns) ∧
        v.violations = u.violations ∧ v.crcErrors = u.crcErrors ∧ v.losFrames = u.losFrames ∧
        v.goodFrames = u.goodFrames) ∧
      (∀ m : LineId, m ≠ l → t.fault.totals[m] = s.fault.totals[m]) ∧
      (s.isNormal = false ∨ s.fault.state ≠ .active → t.fault.totals = s.fault.totals))

/-! ## Responses to the part's own requests (R18) -/

/-- A response R1 admits answers the internal request that place k of the tag pool holds, in NORMAL mode,
before the path unit and the requester have taken an entry into PASS-ONLY mode. -/
def Answers (r : Response) (k : Fin 32) (i : Issued) (s : State) : Prop :=
  r.wellFormed = true ∧ s.heldBy r.tag = some (k, i) ∧ i.fits r = true ∧ s.isNormal = true ∧
    s.discards i.purpose = false

/-- The command that is the response to a request of this purpose. -/
def returnCommand (p : Purpose) (r : Response) : Instr :=
  match p with
  | .recordRead => .recordReadReturn r
  | .completionWrite _ => .completionWriteReturn r
  | .tableRead _ => .windowTableReadReturn r
  | .settingsRead _ => .settingsReadReturn r
  | .reportPost _ => .reportPostWriteReturn r
  | .busWrite _ _ => .busOutWriteReturn r
  | .labelWrite _ => .labelWriteReturn r
  | .payloadRead _ _ _ => .payloadReadReturn r
  | .fileRead _ _ _ => .fileReadReturn r
  | .descriptorFetch _ _ => .descriptorFetchReturn r
  | .measWrite _ _ _ => .measWriteReturn r

/-- The opcode of a handed command (R24). -/
def Handed.opcode : Handed → Nat
  | .applyWindows => 1
  | .applySettings _ => 2
  | .jamTimecode _ => 3
  | .clipMark _ _ => 4
  | .streamFlush _ => 5
  | .lineStart _ => 6
  | .lineHalt _ => 7
  | .lineClear _ => 8
  | .lineResume _ => 9
  | .sendList _ _ => 10
  | .measureStart _ => 11
  | .measureStop => 12

/-- The object of a handed command, where its row of R24 names one. -/
def Handed.object? : Handed → Option Nat
  | .applyWindows => none
  | .applySettings g => some g.val
  | .jamTimecode _ => none
  | .clipMark c _ => some c.val
  | .streamFlush n => some n.val
  | .lineStart l => some l.val
  | .lineHalt l => some l.val
  | .lineClear l => some l.val
  | .lineResume l => some l.val
  | .sendList l _ => some l.val
  | .measureStart _ => none
  | .measureStop => none

/-- The parameter P1 of a handed command, where its row of R24 names one. -/
def Handed.parameter? : Handed → Option (BitVec 64)
  | .applyWindows => none
  | .applySettings _ => none
  | .jamTimecode p => some p
  | .clipMark _ p => some p
  | .streamFlush _ => none
  | .lineStart _ => none
  | .lineHalt _ => none
  | .lineClear _ => none
  | .lineResume _ => none
  | .sendList _ p => some p
  | .measureStart p => some p
  | .measureStop => none

/-- The objects an opcode admits: the numbers below this one, or none for an opcode not in the table; an
opcode with no object ignores the byte (R24). -/
def objectLimit (opcode : Nat) : Option Nat :=
  match opcode with
  | 1 => some 256
  | 2 => some 10
  | 3 => some 256
  | 4 => some 8
  | 5 => some 4
  | 6 => some 3
  | 7 => some 3
  | 8 => some 3
  | 9 => some 3
  | 10 => some 3
  | 11 => some 256
  | 12 => some 256
  | _ => none

/-! ## Boundaries (R50-R52) -/

/-- From s to t a boundary of a reference is counted and handed to its consumers, with the reference's new
state and its cause (R50, R51, R52). -/
def BoundaryMade (ref : Ref) (st : RefState) (cause : BoundaryCause) (s t : State) : Prop :=
  match ref with
  | .audio =>
    let b : AudioBoundary := { state := st, cause := cause, count := s.timing.audioCount + 1 }
    t.timing.audioCount = s.timing.audioCount + 1 ∧ t.timing.videoCount = s.timing.videoCount ∧
      t.timing.timecode = s.timing.timecode ∧ t.timing.rate = s.timing.rate ∧
      t.timing.stagedRate = s.timing.stagedRate ∧ t.timing.jam = s.timing.jam ∧
      t.timing.video = s.timing.video ∧
      t.mixer = { s.mixer with boundaries := s.mixer.boundaries ++ [b] } ∧
      t.fault = { s.fault with boundaries := s.fault.boundaries ++ [b] } ∧
      (∀ l : LineId, t.line l = { s.line l with boundaries := (s.line l).boundaries ++ [b] }) ∧
      ChangesOnly [.timing, .mixer, .fault, .lines, .report] s t
  | .video =>
    let moved := s.timing.jam.getD (s.timing.timecode.advance s.timing.rate)
    let rate := s.timing.stagedRate.getD s.timing.rate
    let timecode := if rate = s.timing.rate then moved else moved.adjust rate
    let b : VideoBoundary :=
      { state := st, cause := cause, timecode := timecode, count := s.timing.videoCount + 1 }
    t.timing.videoCount = s.timing.videoCount + 1 ∧ t.timing.audioCount = s.timing.audioCount ∧
      t.timing.timecode = timecode ∧ t.timing.rate = rate ∧ t.timing.stagedRate = none ∧
      t.timing.jam = none ∧ t.timing.audio = s.timing.audio ∧
      t.label = { s.label with boundaries := s.label.boundaries ++ [b] } ∧
      t.governor = { s.governor with boundaries := s.governor.boundaries ++ [b] } ∧
      ChangesOnly [.timing, .label, .governor, .report] s t

/-- From s to t the report queue takes a REFERENCE event with the reference's new state, or, without one,
stays as it is; nothing else of the report unit changes (R48). In PASS-ONLY mode the event joins a record of its pair
while the report unit has not taken the entry, and makes none (R31, R37, R201). -/
def ReferenceReported (ref : Ref) (event : Option RefState) (s t : State) : Prop :=
  match event with
  | some st =>
    let record : Record :=
      { object := (match ref with | .video => 0 | .audio => 1), repeats := 1,
        timecode := t.timing.timecode, audioCount := t.timing.audioCount, detail := .reference st }
    let held := s.report.queue.any fun y => y.detail.kind == record.detail.kind && y.object == record.object
    t.report = if s.isNormal || (!s.report.stopped && held)
      then { s.report with queue := takeEvent record s.report.queue } else s.report
  | none => t.report = s.report

/-! ## Sound states -/

/-- The pair of a report record: kind and object (2.5). -/
def Record.pair (r : Record) : Nat × Nat := (r.detail.kind, r.object)

/-- The pending report queue holds no two records of one kind and object, and its FAULT records stand at
its head (R30). -/
def Report.Sound (x : Report) : Prop :=
  (x.queue.map Record.pair).Nodup ∧ x.queue.Pairwise fun a b => b.isFault = true → a.isFault = true

/-- The unsent bytes of a stream's QUEUED and SENDING entries (R134). -/
def Stream.owedBytes (x : Stream) : Nat := unsentBytes (x.pictures.filter Picture.owed)

/-- A claim that is not void is for the head entry, within its unsent bytes (R135). -/
def Stream.ClaimSound (x : Stream) : Prop :=
  ∀ c, x.claim = some c → c.isVoid = false →
    ∃ p rest, x.pictures = p :: rest ∧ p.owed = true ∧ c.length ≤ p.unsent

/-- F equals the sum of the unsent bytes of the QUEUED and SENDING entries and is at most the applied
capacity; the queues keep their bounds (R133, R134). -/
def Stream.Sound (x : Stream) : Prop :=
  x.fill = x.owedBytes ∧ x.fill ≤ x.capacity ∧ x.pictures.length ≤ 16 ∧ x.notices.length ≤ 4 ∧ x.ClaimSound

/-- Every stream is sound. -/
def Governor.Sound (x : Governor) : Prop := ∀ n : Fin 4, (x.streams[n]).Sound

/-- The record is CLOSED (R107). -/
def Label.closedAt (x : Label) (i : Fin 32) : Prop := ∃ c, x.clips[i] = some c ∧ c.isOpen = false

/-- The close-order list holds the CLOSED records, each once; a camera has at most one OPEN clip; the uplink
queue holds at most 8 copies (R107, R121, R124). -/
def Label.Sound (x : Label) : Prop :=
  x.order.Nodup ∧ (∀ i : Fin 32, i ∈ x.order ↔ x.closedAt i) ∧
    (∀ (i j : Fin 32) (c d : Clip), x.clips[i] = some c → x.clips[j] = some d → c.isOpen = true →
      d.isOpen = true → c.camera = d.camera → i = j) ∧
    x.uplink.length ≤ 8

/-- The timecode is a valid timecode of the rate in force, and so is a staged jam (R53, R55, R56). -/
def Timing.Sound (x : Timing) : Prop :=
  x.timecode.valid x.rate = true ∧ ∀ j, x.jam = some j → j.valid x.rate = true

/-- The applied window table would pass the validation of R11. -/
def State.TableSound (s : State) : Prop := firstBadEntry s.controlPage [] s.path.windows.toList = none

/-- The mode is PASS-ONLY exactly when a fatal cause is held; the counts of the path unit and the fault unit
keep their bounds (R2, R17, R201, R202). -/
def State.PathSound (s : State) : Prop :=
  (s.fault.mode = .passOnly ↔ s.fault.cause.isSome = true) ∧ s.fault.further ≤ 255 ∧
    s.path.forward.length ≤ 32 ∧ s.path.lockout ≤ 16

/-- Every block has taken the entry into PASS-ONLY mode (R201). -/
def State.AllStopped (s : State) : Prop :=
  s.fault.mode = .passOnly ∧ s.path.stopped = true ∧ s.command.stopped = true ∧ s.report.stopped = true ∧
    s.timing.stopped = true ∧ s.mixer.stopped = true ∧ s.label.stopped = true ∧
    s.governor.stopped = true ∧ ∀ l : LineId, (s.line l).stopped = true

/-- An open frame is the same from f to g but for parity marks: accumulators, bad marks, arrivals and routes
(R85, R92). -/
def FrameFrozen (f g : MixFrame) : Prop :=
  g.rowBad = f.rowBad ∧ g.arrivals = f.arrivals ∧ g.routes = f.routes ∧
    ∀ (b : Fin 16) (i : Fin 48), (g.rows[b][i]).value = (f.rows[b][i]).value

/-- What the manual freezes in PASS-ONLY mode (R27, R37, R62, R85, R101, R127, R149, R175, R196, R203, R212), up to
the parity marks that upsets set. -/
def Frozen (s t : State) : Prop :=
  t.fault.mode = .passOnly ∧ t.fault.cause = s.fault.cause ∧ t.fault.classes = s.fault.classes ∧
    t.fault.totals = s.fault.totals ∧ t.fault.buffer = s.fault.buffer ∧ t.fault.number = s.fault.number ∧
    t.fault.state = s.fault.state ∧ t.fault.interval = s.fault.interval ∧
    t.fault.stagedInterval = s.fault.stagedInterval ∧ t.fault.frames = s.fault.frames ∧
    t.fault.writes = s.fault.writes ∧ t.fault.los = s.fault.los ∧ t.path.windows = s.path.windows ∧
    t.command.state = s.command.state ∧ t.command.producer = s.command.producer ∧
    t.command.consumer = s.command.consumer ∧ t.command.executing = s.command.executing ∧
    t.command.handed = s.command.handed ∧ t.command.gather = s.command.gather ∧
    t.report.queue = s.report.queue ∧ t.report.post = s.report.post ∧
    t.report.written = s.report.written ∧ t.report.consumed = s.report.consumed ∧
    t.report.slot = s.report.slot ∧ t.timing = s.timing ∧
    t.mixer.sources = s.mixer.sources ∧ t.mixer.frame = s.mixer.frame ∧ t.mixer.meters = s.mixer.meters ∧
    t.mixer.targets = s.mixer.targets ∧ t.mixer.applied = s.mixer.applied ∧
    t.mixer.staged = s.mixer.staged ∧ t.mixer.held = s.mixer.held ∧ t.mixer.busQueue = s.mixer.busQueue ∧
    FrameFrozen s.mixer.current t.mixer.current ∧ FrameFrozen s.mixer.next t.mixer.next ∧
    (∀ i : Fin 32, (t.label.clips[i]).map (fun c => { c with parityBad := false }) =
      (s.label.clips[i]).map fun c => { c with parityBad := false }) ∧
    t.label.order = s.label.order ∧ t.label.uplink = s.label.uplink ∧ t.label.cameras = s.label.cameras ∧
    t.label.nextId = s.label.nextId ∧ t.label.stray = s.label.stray ∧ t.label.applied = s.label.applied ∧
    t.label.staged = s.label.staged ∧ t.label.periodTimecode = s.label.periodTimecode ∧
    t.label.periodVideo = s.label.periodVideo ∧ t.label.inFlight = s.label.inFlight ∧
    t.label.written = s.label.written ∧ t.label.consumed = s.label.consumed ∧ t.label.slot = s.label.slot ∧
    t.governor.streams = s.governor.streams ∧
    ∀ l : LineId, (t.line l).applied = (s.line l).applied ∧ (t.line l).staged = (s.line l).staged ∧
      (t.line l).function = (s.line l).function ∧ (t.line l).sequence = (s.line l).sequence ∧
      (t.line l).list = (s.line l).list ∧ (t.line l).next = (s.line l).next ∧ (t.line l).tx = (s.line l).tx ∧
      (t.line l).jobs = (s.line l).jobs ∧ (t.line l).startPending = (s.line l).startPending ∧
      (t.line l).holdBefore = (s.line l).holdBefore ∧ (t.line l).audioDue = (s.line l).audioDue ∧
      (t.line l).newPeriod = (s.line l).newPeriod ∧ (t.line l).labelSent = (s.line l).labelSent ∧
      (t.line l).periodUnlocked = (s.line l).periodUnlocked ∧ (t.line l).receiver = (s.line l).receiver

/-! ## Writes the part originates (R18) -/

/-- A burst of a request on the memory port lies in a byte range. -/
def MemRequest.within (r : MemRequest) (first limit : Nat) : Prop :=
  first ≤ BeatAddr.byte r.addr ∧ BeatAddr.byte r.addr + 8 * r.burst.beats ≤ limit

/-- A write lies on the completion code and result fields of a record of the command ring (R18, R25). -/
def OnCompletionFields (s : State) (r : MemRequest) : Prop :=
  ∃ k, k < 16 ∧ BeatAddr.byte r.addr = s.controlPage + 0x0C00 + 32 * k ∧
    ∃ b : Beat, r.burst = .write [b] ∧ b.enables = 0xF4

/-- A write is where R18 lets the part write. -/
def WriteAllowed (s : State) (r : MemRequest) : Prop :=
  OnCompletionFields s r ∨
    ∃ k w, (k = .busOut ∨ k = .label ∨ k = .report ∨ k = .meas) ∧ s.ownedWindow k = some w ∧
      r.within w.first w.limit

/-! ## The line code (R182, R183, R186) -/

/-- The symbols the coder gives for some bits, from a coder state, and the coder after them. -/
def codeBits (code : ZeroRun) (c : Coder) (bits : List Bool) : Coder := bits.foldl (Coder.take code) c

/-- The receiver takes a symbol and passes on the bits that have been decided. -/
def decodeSymbol (code : ZeroRun) (x : List Bool × Receiver) (y : Symbol) : List Bool × Receiver :=
  let d := (x.2.decode code y).decide code
  (x.1 ++ d.1, d.2)

/-- The bits a receiver decodes from some symbols: those decided, and those of the symbols still held. -/
def decodeSymbols (code : ZeroRun) (r : Receiver) (symbols : List Symbol) : List Bool × Receiver :=
  symbols.foldl (decodeSymbol code) ([], r)

end Sys2Proof.Machine
end

