-- ==== Sys2Proof/Certificates/Slice0/Obligations.lean ====
section
/-! DEFINITION. The statements about the model, for the provers. -/

open Sys2Proof Sys2Proof.Machine

/-! ## The machine -/

/-- One step takes the command at the front of the queue and is that command's effect on the state with the
queue's rest; on an empty queue it is one core clock, the model's choice (log 3). -/
def Obligations.StepRunsTheFrontCommand : Prop :=
  ∀ s : State,
    (∀ (c : Instr) (rest : List Instr), s.pending = c :: rest → step s = exec c (s.withPending rest)) ∧
    (s.pending = [] → step s = .next (coreClock s))

/-- RESET, whatever the state before, reads the strap value and leaves every block as the manual gives it after
reset: the path unit (R19), the command and report units (R39, R40, R41), the timing unit (R63), the mixer
(R86, R102), the label unit (R128), the governor (R150), the lines (R176, R198) and the fault unit (R213). -/
def Obligations.ResetLeavesTheStatedValues : Prop :=
  ∀ (cpb : BitVec 12) (s : State), ∃ t, exec (.reset cpb) s = .next t ∧
    t.path.cpb = cpb ∧ t.pending = s.pending ∧
    (∀ i : Fin 16, (t.path.windows[i]).kind = 0 ∧ (t.path.windows[i]).size = 0 ∧ t.path.parityBad[i] = false) ∧
    t.path.forward = [] ∧ t.path.intercepted = [] ∧
    (∀ k : Fin 64, (t.path.tags[k]).forwarded = 0 ∧ (t.path.tags[k]).intercepted = 0) ∧
    (∀ k : Fin 32, t.path.pool[k] = none) ∧
    (∀ q : Fin 8, t.path.queues[q] = { waiting := none, later := [] }) ∧
    t.path.lockout = 0 ∧ t.path.turn = commandQueue ∧
    t.fault.mode = .normal ∧ t.fault.cause = none ∧ t.fault.further = 0 ∧ t.faultPin = false ∧
    (∀ k : Fin 8, t.fault.classes[k] = { latest := .address 0, count := 0 }) ∧
    t.fault.state = .inactive ∧ t.fault.interval = 100 ∧ t.fault.stagedInterval = none ∧
    t.fault.frames = 0 ∧ t.fault.number = 0 ∧ t.fault.writes = [] ∧
    (∀ l : LineId, t.fault.totals[l] = Totals.zero ∧ t.fault.los[l] = true ∧
      t.fault.buffer[l] = { totals := Totals.zero, interval := 0, length := 0, audioCount := 0 }) ∧
    t.command.state = .idle ∧ t.command.producer = 0 ∧ t.command.consumer = 0 ∧ t.command.executing = 0 ∧
    t.command.handed = none ∧ t.command.gather = none ∧
    t.report.queue = [] ∧ t.report.post = none ∧ t.report.written = 0 ∧ t.report.consumed = 0 ∧
    t.report.slot = 0 ∧ t.attn = false ∧ t.stagedFlags = List.replicate 10 false ∧
    (∀ ref, t.timing.reference ref = { state := .absent, elapsed := 0, freeRun := 0, glitches := 0 }) ∧
    t.timing.rate = .r25 ∧ t.timing.timecode = Timecode.zero ∧ t.timing.videoCount = 0 ∧
    t.timing.audioCount = 0 ∧ t.timing.jam = none ∧ (∀ i : Fin 7, t.timing.slots[i] = none) ∧
    (∀ i : Fin 6, t.timing.filtered[i] = false ∧ t.timing.selections[i] = .off) ∧
    (∀ x : Fin 64, t.mixer.sources[x] =
      { active := false, late := 0, rewrites := 0, outOfWindow := 0, idleRun := 8 }) ∧
    t.mixer.frame = 0 ∧ t.mixer.applied = [] ∧ t.mixer.busQueue = [] ∧
    (∀ r : Fin 256, t.mixer.targets[r] = 0) ∧
    (∀ next, (t.mixer.openFrame next).routes = [] ∧
      (∀ x : Fin 64, (t.mixer.openFrame next).arrivals[x] = 0) ∧
      ∀ b : Fin 16, (t.mixer.openFrame next).rowBad[b] = false ∧
        ∀ i : Fin 48, (t.mixer.openFrame next).rows[b][i] = { value := 0, parityBad := false }) ∧
    (∀ b : Fin 16, t.mixer.meters[b] = 0 ∧ (t.mixer.held[b]).frame = 4294967295 ∧
      ∀ i : Fin 48, (t.mixer.held[b]).samples[i] = 0) ∧
    (∀ i : Fin 32, t.label.clips[i] = none) ∧ t.label.order = [] ∧ t.label.uplink = [] ∧ t.label.nextId = 1 ∧
    t.label.stray = 0 ∧ t.label.periodTimecode = Timecode.zero ∧ t.label.periodVideo = 0 ∧
    t.label.written = 0 ∧ t.label.consumed = 0 ∧ t.label.slot = 0 ∧ t.label.inFlight = none ∧
    t.label.applied.goodHold = 0 ∧
    (∀ k : Fin 8, t.label.cameras[k] = { completions := 0, completed := false, lastSlot := 0 } ∧
      t.label.openId k = 0 ∧ t.label.applied.buses[k] = none) ∧
    (∀ i : Fin 6, (t.label.applied.inputs[i]).function = .none ∧ (t.label.applied.inputs[i]).edge = .off) ∧
    (∀ n : Fin 4, t.stream n =
      { applied := none, staged := none, fill := 0, hint := 0, keyRequest := false, pictures := [],
        notices := [], claim := none, counter := 0, lastAdmitted := 0 }) ∧
    (∀ l : LineId, (t.line l).function = .idle ∧ (t.line l).sequence = 0 ∧ (t.line l).output = .noSignal ∧
      t.ltx l = .space ∧ (t.line l).tx = none ∧ (t.line l).next = none ∧ (t.line l).jobs = [] ∧
      (t.line l).applied = { rate := .off, code := .off, loopback := .none, buses := [], liveStream := none,
                             carriesLabels := false, returnEnabled := false } ∧
      (t.line l).startPending = false ∧ (t.line l).audioDue = false ∧ (t.line l).newPeriod = false ∧
      (t.line l).labelSent = false ∧ (t.line l).periodUnlocked = false ∧
      (t.line l).list.state = .none ∧ (t.line l).list.current = 0 ∧ (t.line l).list.loaded = none ∧
      (t.line l).list.reserved = 0 ∧ (t.line l).list.fetching = none ∧ (t.line l).list.ending = false ∧
      (t.line l).list.resumePending = false ∧
      (t.line l).coder.lastPositive = false ∧ (t.line l).coder.odd = false ∧ (t.line l).coder.pending = 0 ∧
      (t.line l).receiver.los = true ∧ (t.line l).receiver.sync = .hunt ∧
      (t.line l).receiver.heldGood = false ∧ (t.line l).receiver.badFrames = 0 ∧
      (t.line l).receiver.spaces = 96 ∧ (t.line l).receiver.lastPositive = false ∧
      (t.line l).receiver.undecided = [] ∧ (t.line l).receiver.ignored = 0)

/-! ## Fabric requests -/

/-- A request that is forwarded without any other action (R2, R3, R7, R8, R10): in PASS-ONLY mode every
request but a status-area read, in NORMAL mode a plain request or another read of the control page. A request spans
when its bytes do not lie in one 4 KiB page (R9), its window is the entry of lowest index among the enabled ones that
cover its first beat (R4, R7), and a parity error is found in enabled entries only (R10). -/
def Obligations.PlainRequestIsForwardedOnly : Prop :=
  (∀ (r : Request) (us : List Upset) (s₀ s : State), Arrives r us s₀ s →
    ((s.isNormal = false ∧ TagFree r s ∧ ¬ StatusRead r s) ∨
     (Classified r s ∧ requestSpans r = false ∧ ¬ InControlPage r s ∧ s.windowOf r = none) ∨
     (Classified r s ∧ requestSpans r = false ∧ InControlPage r s ∧ (∃ n, r.burst = .read n) ∧
       ¬ StatusRead r s)) →
    exec (.fabricRequest r us) s₀ = .next (forwardedState r s)) ∧
  (∀ (r : Request) (s : State),
    let byte := 8 * r.addr.toNat
    let enabled (w : WindowEntry) : Prop := w.kind ≠ 0 ∧ w.size ≠ 0
    let covers (w : WindowEntry) : Prop :=
      enabled w ∧ w.base.toNat ≤ byte ∧ byte < w.base.toNat + 4096 * w.size.toNat
    requestByte r = byte ∧
    (requestSpans r = true ↔ byte / 4096 ≠ (byte + 8 * r.burst.beats - 1) / 4096 ∧ 0 < r.burst.beats) ∧
    (∀ w, s.windowOf r = some w ↔ ∃ k : Fin 16, s.path.windows[k] = w ∧ covers w ∧
      ∀ j : Fin 16, j < k → ¬ covers s.path.windows[j]) ∧
    (s.windowOf r = none ↔ ∀ k : Fin 16, ¬ covers s.path.windows[k]) ∧
    (∀ k : Fin 16, k ∈ s.parityErrors ↔ s.path.parityBad[k] = true ∧ enabled s.path.windows[k]))

/-- R9: a spanning burst, in NORMAL mode with no fatal cause revealed, is forwarded unchanged and makes a
BURST_SPAN fault with its address; nothing else changes, whatever it touches. -/
def Obligations.SpanningBurstIsForwardedWithFault : Prop :=
  ∀ (r : Request) (us : List Upset) (s₀ s : State), Arrives r us s₀ s → Classified r s →
    requestSpans r = true →
    exec (.fabricRequest r us) s₀ = .next (faultedState 0 (requestAddress r) (forwardedState r s))

/-- A status-area read is answered from the state at its arrival, in either mode: it takes its place among
the intercepted reads and is not forwarded (R8, R10, R13, R15). Each beat at 0x13FF or below holds the 8 bytes
of the area at its offset, each above reads as zero (R13). The area is 1,024 bytes and shows the items of R38
and of section 11.6 at their offsets, each byte it does not name being zero. That the fatal detail reads 0 while there
is no cause is the model's choice (log 36). -/
def Obligations.StatusAreaReadIsIntercepted : Prop :=
  (∀ (r : Request) (us : List Upset) (s₀ s : State), Arrives r us s₀ s → TagFree r s →
    (s.isNormal = true → s.parityErrors = []) → StatusRead r s →
    exec (.fabricRequest r us) s₀ = .next
      (interceptedState r (s.statusBeats (requestByte r - s.controlPage) r.burst.beats) s)) ∧
  (∀ (s : State) (o n : Nat), 0x1000 ≤ o → o ≤ 0x13FF → o % 8 = 0 →
    s.statusBeats o n = (List.range n).map fun k =>
      if o + 8 * k ≤ 0x13FF then BitVec.ofNat 64 (field s.statusBytes (o - 0x1000 + 8 * k) 8) else 0) ∧
  (∀ s : State,
    let staged := field s.statusBytes 6 2
    s.statusBytes.length = 1024 ∧
    s.Shows 0x1000 1 (if s.fault.mode = .passOnly then 1 else 0) ∧
    s.Shows 0x1001 1 (match s.fault.cause with
      | none => 0
      | some (.tagInUse _) => 1
      | some (.unknownTag _) => 2
      | some (.windowParity _) => 3) ∧
    s.Shows 0x1002 1 s.fault.further ∧ s.Shows 0x1003 1 0 ∧
    s.Shows 0x1004 2 (match s.fault.cause with
      | none => 0
      | some (.tagInUse k) => k.toNat
      | some (.unknownTag k) => k.toNat
      | some (.windowParity e) => e) ∧
    staged < 1024 ∧ staged.testBit 0 = s.timing.stagedRate.isSome ∧ staged.testBit 1 = s.label.staged.isSome ∧
    (∀ n : Fin 4, staged.testBit (2 + n.val) = (s.stream n).staged.isSome) ∧
    (∀ l : LineId, staged.testBit (6 + l.val) = (s.line l).staged.isSome) ∧
    staged.testBit 9 = s.mixer.staged.isSome ∧
    s.Shows 0x1008 2 s.command.producer.toNat ∧ s.Shows 0x100A 2 s.command.consumer.toNat ∧
    s.Shows 0x100C 2 s.command.state.code ∧ s.Shows 0x100E 2 s.command.executing.toNat ∧
    s.Shows 0x1010 2 s.report.written.toNat ∧ s.Shows 0x1012 2 s.report.consumed.toNat ∧
    s.Shows 0x1014 2 s.report.slot ∧ s.Shows 0x1016 1 s.report.queue.length ∧
    s.Shows 0x1017 1 (if s.report.post.isSome then 1 else 0) ∧
    s.Shows 0x1018 1 s.timing.timecode.ff ∧ s.Shows 0x1019 1 s.timing.timecode.ss ∧
    s.Shows 0x101A 1 s.timing.timecode.mm ∧ s.Shows 0x101B 1 s.timing.timecode.hh ∧
    s.Shows 0x101C 4 s.timing.videoCount.toNat ∧ s.Shows 0x1020 4 s.timing.audioCount.toNat ∧
    s.Shows 0x1024 1 s.timing.video.state.code ∧ s.Shows 0x1025 1 s.timing.audio.state.code ∧
    s.Shows 0x1026 2 s.timing.video.glitches ∧ s.Shows 0x1028 2 s.timing.audio.glitches ∧
    s.Shows 0x102A 1 (if s.fault.state = .active then 1 else 0) ∧ s.Shows 0x102B 1 s.fault.state.code ∧
    s.Shows 0x102C 4 s.fault.number.toNat ∧ s.Shows 0x1030 2 s.fault.interval ∧
    s.Shows 0x1032 2 (s.fault.stagedInterval.getD 0) ∧ s.Shows 0x1034 2 s.fault.frames ∧
    s.Shows 0x1036 10 0 ∧
    (∀ k : Fin 8, s.Shows (0x1040 + 8 * k.val) 8 (match (s.fault.classes[k]).latest with
        | .address a => a.toNat
        | .location u i => 2 ^ 63 + 256 * u.toNat + i.toNat) ∧
      s.Shows (0x1080 + 2 * k.val) 2 (s.fault.classes[k]).count.toNat) ∧
    (∀ b : Fin 16, s.Shows (0x1090 + 4 * b.val) 4 s.mixer.meters[b]) ∧
    s.Shows 0x10D0 2 s.label.written.toNat ∧ s.Shows 0x10D2 2 s.label.consumed.toNat ∧
    s.Shows 0x10D4 2 s.label.slot ∧
    s.Shows 0x10D6 1 ((List.finRange 32).filter fun i => (s.label.clips[i]).isSome).length ∧
    s.Shows 0x10D7 1 s.label.uplink.length ∧ s.Shows 0x10D8 2 s.label.stray.toNat ∧ s.Shows 0x10DA 6 0 ∧
    (∀ c : Fin 8, s.Shows (0x10E0 + 2 * c.val) 2 (s.label.openId c).toNat ∧
      s.Shows (0x10F0 + 2 * c.val) 2 (s.label.cameras[c]).lastSlot.toNat ∧
      s.Shows (0x1100 + 4 * c.val) 4 (s.label.cameras[c]).completions.toNat) ∧
    (∀ n : Fin 4,
      let o := 0x1120 + 32 * n.val
      let x := s.stream n
      s.Shows o 4 x.fill ∧ s.Shows (o + 4) 1 x.hint ∧ s.Shows (o + 5) 1 (if x.keyRequest then 1 else 0) ∧
      s.Shows (o + 6) 1 x.pictures.length ∧ s.Shows (o + 7) 1 x.notices.length ∧
      s.Shows (o + 8) 4 x.counter.toNat ∧ s.Shows (o + 12) 4 x.lastAdmitted.toNat ∧
      (x.pictures = [] → s.Shows (o + 16) 8 0) ∧
      (∀ p rest, x.pictures = p :: rest → s.Shows (o + 16) 4 p.number.toNat ∧
        s.Shows (o + 20) 1 p.timecode.ff ∧ s.Shows (o + 21) 1 p.timecode.ss ∧
        s.Shows (o + 22) 1 p.timecode.mm ∧ s.Shows (o + 23) 1 p.timecode.hh) ∧
      s.Shows (o + 24) 8 0) ∧
    (∀ l : LineId,
      let o := 0x11A0 + 32 * l.val
      let x := s.line l
      s.Shows o 1 x.function.code ∧ s.Shows (o + 1) 1 x.list.state.code ∧
      s.Shows (o + 2) 1 (if x.receiver.los then 1 else 0) ∧
      s.Shows (o + 3) 1 (if x.receiver.sync = .locked then 1 else 0) ∧
      s.Shows (o + 4) 2 x.sequence.toNat ∧ s.Shows (o + 6) 2 x.receiver.ignored.toNat ∧
      s.Shows (o + 8) 8 x.list.current ∧ s.Shows (o + 16) 4 x.list.reserved ∧
      s.Shows (o + 20) 1 (if x.list.resumePending then 1 else 0) ∧
      s.Shows (o + 21) 1 ((x.tx.map (·.kind.code)).getD 0xFF) ∧
      s.Shows (o + 22) 1 ((x.next.map (·.kind.code)).getD 0xFF) ∧ s.Shows (o + 23) 9 0) ∧
    (∀ x : Fin 64,
      let o := 0x1200 + 8 * x.val
      s.Shows o 1 (if (s.mixer.sources[x]).active then 1 else 0) ∧ s.Shows (o + 1) 1 0 ∧
      s.Shows (o + 2) 2 (s.mixer.sources[x]).late.toNat ∧
      s.Shows (o + 4) 2 (s.mixer.sources[x]).rewrites.toNat ∧
      s.Shows (o + 6) 2 (s.mixer.sources[x]).outOfWindow.toNat))

/-- A request that reveals a fatal cause (R3, R10, R201, R202): the first cause makes the mode PASS-ONLY and is kept
with its detail, a later one is counted; a status-area read is still answered, with the beats of the area (R38,
section 11.6), and every other request is forwarded; no other block is changed. That the beats already show the cause
this read revealed is the model's choice (log 32). That a parity error is found by the classification of every NORMAL
request, one that spans a page or lies in the control page included, is the model's choice (log 16). -/
def Obligations.FatalRequestIsStillHandled : Prop :=
  ∀ (r : Request) (us : List Upset) (s₀ s : State), Arrives r us s₀ s →
    (¬ TagFree r s ∨ (s.isNormal = true ∧ s.parityErrors ≠ [])) →
    ∃ t, exec (.fabricRequest r us) s₀ = .next t ∧ ChangesOnly [.path, .fault] s t ∧
      t.fault.mode = .passOnly ∧
      (s.isNormal = true → ¬ TagFree r s → t.fault.cause = some (.tagInUse r.tag)) ∧
      (s.isNormal = true → TagFree r s → ∃ i ∈ s.parityErrors, t.fault.cause = some (.windowParity i.val)) ∧
      (s.isNormal = false →
        t.fault = { s.fault with further := min (s.fault.further + 1) 255 }) ∧
      (¬ StatusRead r s →
        t.path.forward = s.path.forward ++ [r] ∧ t.path.intercepted = s.path.intercepted) ∧
      (StatusRead r s →
        let shown : State := { s with fault := t.fault }
        let beats := shown.statusBeats (requestByte r - s.controlPage) r.burst.beats
        t.path.forward = s.path.forward ∧
          t.path.intercepted = s.path.intercepted ++ [{ tag := r.tag, beats := beats }])

/-- A control-page write is forwarded and hands each fully written snooped field to its owner; each partly
written one makes a PARTIAL_CONTROL_WRITE fault with the byte address of the field's first byte, offers its FAULT
event, and hands nothing (R8, R21, R199). That several partly written fields are taken in the order of the beats, the
last standing as the latest, is the model's choice (log 44). -/
def Obligations.SnoopedFieldsAreHandedOver : Prop :=
  ∀ (r : Request) (us : List Upset) (s₀ s : State) (beats : List Beat), Arrives r us s₀ s →
    Classified r s → requestSpans r = false → InControlPage r s → r.burst = .write beats →
    let at' := beatAt beats (requestByte r - s.controlPage)
    let partlyWritten := snoopedOffsets.filter fun o => fieldPartly (at' o)
    let partly := partlyWritten.length
    let faulted := partlyWritten.foldl
      (fun u o => faultedState 6 (.address (BitVec.ofNat 36 (s.controlPage + o))) u) s
    ∃ t, exec (.fabricRequest r us) s₀ = .next t ∧
      ChangesOnly [.path, .command, .report, .label, .mixer, .fault] s t ∧
      t.path = (forwardedState r s).path ∧
      t.command = { s.command with inbox := s.command.inbox ++ fieldValue (at' 0x0E00) } ∧
      t.report = { s.report with
        inbox := s.report.inbox ++ fieldValue (at' 0x0E08), queue := t.report.queue } ∧
      t.label = { s.label with inbox := s.label.inbox ++ fieldValue (at' 0x0E10) } ∧
      t.mixer = { s.mixer with gains := s.mixer.gains ++
        (List.finRange 256).flatMap fun k => (fieldValue (at' (0x0400 + 8 * k.val))).map fun g => (k, g) } ∧
      t.fault = { s.fault with classes := t.fault.classes } ∧
      (∀ k : Fin 8, k ≠ 6 → t.fault.classes[k] = s.fault.classes[k]) ∧
      (t.fault.classes[(6 : Fin 8)]).count =
        (s.fault.classes[(6 : Fin 8)]).count + BitVec.ofNat 16 partly ∧
      t.fault = faulted.fault ∧ t.report.queue = faulted.report.queue ∧
      (partly = 0 → t.fault = s.fault ∧ t.report.queue = s.report.queue)

/-- R6: a read classified to a part-owned window is forwarded and nothing else; a write is forwarded and
makes an OWNED_WRITE fault with its address, and is not tapped. The part's own writes are not classified: no
acceptance of a request at the memory port takes an OWNED_WRITE fault or taps anything. -/
def Obligations.OwnedWindowRequestsAreForwarded : Prop :=
  (∀ (r : Request) (us : List Upset) (s₀ s : State) (w : WindowEntry), Arrives r us s₀ s → Classified r s →
    WindowIs w r s → w.kindOf.owned = true →
    let forwarded := forwardedState r s
    ((∃ n, r.burst = .read n) → exec (.fabricRequest r us) s₀ = .next forwarded) ∧
    ((∃ beats, r.burst = .write beats) →
      exec (.fabricRequest r us) s₀ = .next (faultedState 2 (requestAddress r) forwarded))) ∧
  (∀ (pick : BitVec 5) (s t : State), exec (.memoryPortAcceptance pick) s = .next t →
    t.fault.classes[(2 : Fin 8)] = s.fault.classes[(2 : Fin 8)] ∧ t.governor = s.governor ∧
    t.mixer.sources = s.mixer.sources ∧ t.mixer.current = s.mixer.current ∧
    t.label.cameras = s.label.cameras)

/-- A read of an AUDIO_IN or PICTURE window is only forwarded. A write into an AUDIO_IN window is forwarded
and each sample it holds is taken by the mixer, in order (R5, R66, R70): the samples are those of
`tappedSamples`, and SampleGoesToItsOpenFrame says what taking one does. A write into a PICTURE window is
forwarded, and counts a frame completion of the window's camera exactly when it includes the final beat of a
whole frame slot (R5, R105). What is recorded for a slot above 65,535 is a free value (log 53). -/
def Obligations.AudioAndPictureWritesAreTapped : Prop :=
  ∀ (r : Request) (us : List Upset) (s₀ s : State) (w : WindowEntry), Arrives r us s₀ s → Classified r s →
    WindowIs w r s → (w.kindOf = .audioIn ∨ w.kindOf = .picture) →
    let o := requestByte r - w.first
    let forwarded := forwardedState r s
    let slotBytes := 4096 * w.perFrame.toNat
    let slot := o / slotBytes
    let final := slotBytes * (slot + 1) - 8
    ((∃ n, r.burst = .read n) → exec (.fabricRequest r us) s₀ = .next forwarded) ∧
    (∀ beats, r.burst = .write beats →
      (w.kindOf = .audioIn →
        let mixer := (tappedSamples w.object.toNat o beats).foldl
          (fun m x => m.takeSample x.1 x.2.1 x.2.2.1 x.2.2.2) s.mixer
        exec (.fabricRequest r us) s₀ = .next { forwarded with mixer := mixer }) ∧
      (∀ camera : Fin 8, w.kindOf = .picture → w.object.toNat = camera.val →
        exec (.fabricRequest r us) s₀ = .next
          (if slot < w.size.toNat / w.perFrame.toNat ∧ o ≤ final ∧ final < o + 8 * beats.length then
            let completed : CameraState :=
              { completions := (s.label.cameras[camera]).completions + 1, completed := true,
                lastSlot := if slot < 65536 then BitVec.ofNat 16 slot else Config.highSlot slot }
            { forwarded with label := { s.label with cameras := s.label.cameras.set camera completed } }
          else forwarded)))

/-- A sample is taken by the slot it lies in (R65-R68). In an open frame with its arrival flag clear it is
added, as the product its gain and polarity give, to the accumulator of each bus that a route of the frame
names with the source (a row marked bad where that accumulator's parity is bad), and makes the source ACTIVE;
with the flag set it counts as a rewrite only. In the last closed slot it is late, elsewhere out of window.
No two routes of a frame share bus and source (R75). -/
def Obligations.SampleGoesToItsOpenFrame : Prop :=
  ∀ (m : Mixer) (source : Fin 64) (slot : Fin 8) (i : Fin 48) (x : Sample),
    (∀ next, ((m.openFrame next).routes.map fun q => (q.record.bus, q.record.source)).Nodup) →
    let f := m.frame.toNat
    let old := m.sources[source]
    let m' := m.takeSample source slot.val i x
    (slot.val = (f + 7) % 8 → m' = { m with sources := m.sources.set source { old with late := old.late + 1 } }) ∧
    (slot.val ≠ (f + 7) % 8 → slot.val ≠ f % 8 → slot.val ≠ (f + 1) % 8 →
      m' = { m with sources := m.sources.set source { old with outOfWindow := old.outOfWindow + 1 } }) ∧
    (∀ next : Bool, slot.val = (f + if next then 1 else 0) % 8 →
      let o := m.openFrame next
      let o' := m'.openFrame next
      (o.arrivals[source].getLsbD i.val = true →
        m' = { m with sources := m.sources.set source { old with rewrites := old.rewrites + 1 } }) ∧
      (o.arrivals[source].getLsbD i.val = false →
        m'.sources = m.sources.set source { old with active := true, idleRun := 0 } ∧
        m'.openFrame (!next) = m.openFrame (!next) ∧ o'.routes = o.routes ∧
        (∀ y : Fin 64, ∀ j : Fin 48, o'.arrivals[y].getLsbD j.val =
          (o.arrivals[y].getLsbD j.val || (y == source && j == i))) ∧
        ∀ b : Fin 16, ∀ j : Fin 48,
          match (o.routes.find? fun q => q.record.bus == b && q.record.source == source), j == i with
          | some q, true =>
            if (o.rows[b][j]).parityBad then o'.rows[b][j] = o.rows[b][j] ∧ o'.rowBad[b] = true
            else o'.rows[b][j] =
              { value := BitVec.ofInt 48 ((o.rows[b][j]).value.toInt + q.product i x), parityBad := false }
          | _, _ => o'.rows[b][j] = o.rows[b][j]))

/-- A request classified to the CODED window of a stream (R5, R14, R129-R132, R137, R142): a read that includes
the hint beat is answered with it and zeros, the hint beat holding H, the key request, F in KiB and the last admitted
picture number (R142, section 11.4); a payload write overruns each entry with a written byte among its
unsent ones, which becomes CORRUPT and gives back its fill, with the key request, a notice and a STREAM event,
and voids the claim when it is the head's; a marker write is judged, numbered and admitted or dropped; every
other request is only forwarded. A notice added to four held ones widens the newest (R133). A picture admitted or
dropped for a camera updates the camera's OPEN clip (R120). -/
def Obligations.CodedWindowRequestsReachTheGovernor : Prop :=
  (∀ (r : Request) (us : List Upset) (s₀ s : State) (w : WindowEntry) (n : Fin 4), Arrives r us s₀ s →
    Classified r s → WindowIs w r s → w.kindOf = .coded → w.object.toNat = n.val →
    let o := requestByte r - w.first
    let ring := w.ringBytes
    let x := s.stream n
    let forwarded := forwardedState r s
    (∀ k, r.burst = .read k →
      (ring ≤ o ∧ o ≤ ring + 8 ∧ ring + 8 < o + 8 * k → exec (.fabricRequest r us) s₀ = .next
        (interceptedState r
          ((List.range k).map fun j => if o - ring + 8 * j = 8 then x.hintWord else 0) s)) ∧
      (¬ (ring ≤ o ∧ o ≤ ring + 8 ∧ ring + 8 < o + 8 * k) →
        exec (.fabricRequest r us) s₀ = .next forwarded)) ∧
    (∀ beats, r.burst = .write beats → ring < o → exec (.fabricRequest r us) s₀ = .next forwarded) ∧
    (∀ beats, r.burst = .write beats → o < ring →
      let written := enabledOffsets o beats
      let overrun (p : Picture) : Bool := p.state != .corrupt &&
        written.any fun a => decide ((a + ring - (p.start + (p.length - p.unsent)) % ring) % ring < p.unsent)
      let hit := x.pictures.filter overrun
      let left := x.pictures.map fun p => if overrun p then { p with state := .corrupt } else p
      exec (.fabricRequest r us) s₀ = .next
        (hit.foldl (fun t p => offer n.val (.stream 0 1 0 p.number) t) (forwarded.setStream n
          { x with
            pictures := if x.claim = none then left.dropWhile fun p => p.state == .corrupt else left
            fill := x.fill - (hit.map (·.unsent)).sum
            keyRequest := x.keyRequest || !hit.isEmpty
            notices := hit.foldl
              (fun ns p => addNotice p.number p.number (decide (p.unsent < p.length)) ns) x.notices
            claim := x.claim.map fun c =>
              { c with isVoid := c.isVoid || (x.pictures.head?.map overrun).getD false } }))) ∧
    (∀ b beats, r.burst = .write (b :: beats) → o = ring →
      let length := b.data.toNat % 2 ^ 32
      let endOffset := b.data.toNat / 2 ^ 32 % 2 ^ 28
      let kind := b.data.toNat / 2 ^ 60
      exec (.fabricRequest r us) s₀ = .next
        (if b.enables ≠ 0xFF ∨ length = 0 ∨ ring < length ∨ 1 < kind ∨ ring ≤ endOffset then
          faultedState 4 (requestAddress r) forwarded
        else if x.pictures.length < 16 ∧ x.fill + length ≤ x.capacity then
          pictureAdmitted (x.counter + 1) x.camera (forwarded.setStream n
            { x with
              counter := x.counter + 1
              lastAdmitted := x.counter + 1
              fill := x.fill + length
              keyRequest := if kind = 1 then false else x.keyRequest
              pictures := x.pictures ++
                [{ number := x.counter + 1, start := (endOffset + ring - length) % ring, length := length,
                   key := kind == 1, timecode := s.timing.timecode, unsent := length, state := .queued }] })
        else
          pictureDropped x.camera (offer n.val (.stream 1 0 0 (x.counter + 1)) (forwarded.setStream n
            { x with
              counter := x.counter + 1
              keyRequest := true
              notices := addNotice (x.counter + 1) (x.counter + 1) false x.notices }))))) ∧
  (∀ x : Stream,
    let bs := bytesOfWords [x.hintWord]
    Holds bs 0 1 x.hint ∧ Holds bs 1 1 (if x.keyRequest then 1 else 0) ∧ Holds bs 2 2 (x.fill / 1024) ∧
      Holds bs 4 4 x.lastAdmitted.toNat) ∧
  (∀ (first last : Count32) (flag : Bool) (ns : List Notice),
    (ns.length < 4 →
      addNotice first last flag ns = ns ++ [{ first := first, last := last, isPartial := flag }]) ∧
    (∀ older y, ns = older ++ [y] → 4 ≤ ns.length → addNotice first last flag ns = older ++
      [{ first := if (y.first - first).toNat < 2 ^ 31 then first else y.first
         last := if (last - y.last).toNat ≤ 2 ^ 31 then last else y.last
         isPartial := y.isPartial || flag }])) ∧
  (∀ (number : Count32) (s : State),
    pictureAdmitted number none s = s ∧ pictureDropped none s = s ∧
    (s.ClipsGood → ∀ camera : Fin 8,
      let openOn (c : Clip) : Bool := c.closing.isNone && c.camera == camera
      pictureAdmitted number (some camera) s = { s with label := { s.label with
        clips := Vector.ofFn fun i => (s.label.clips[i]).map fun c =>
          if openOn c then { c with pictures := some ((c.pictures.map (·.1)).getD number, number) } else c } } ∧
      pictureDropped (some camera) s = { s with label := { s.label with
        clips := Vector.ofFn fun i => (s.label.clips[i]).map fun c =>
          if openOn c then { c with pictureDrops := c.pictureDrops + 1 } else c } }))

/-- R2: every request that arrives is answered by interception, when it is a read, or goes to the tail of the
forward queue with everything it carries, in NORMAL and PASS-ONLY mode alike, whatever upsets come with it;
and its tag's count goes up by one. -/
def Obligations.EveryRequestIsForwardedOrAnswered : Prop :=
  ∀ (r : Request) (us : List Upset) (s : State), r.wellFormed = true → s.path.forward.length < 32 →
    ∃ t, exec (.fabricRequest r us) s = .next t ∧
      ((t.path.forward = s.path.forward ++ [r] ∧ t.path.intercepted = s.path.intercepted ∧
          (t.path.tags[r.tag.toFin]).forwarded = (s.path.tags[r.tag.toFin]).forwarded + 1) ∨
       ((∃ n, r.burst = .read n) ∧ t.path.forward = s.path.forward ∧
          (∃ beats, t.path.intercepted = s.path.intercepted ++ [{ tag := r.tag, beats := beats }]) ∧
          (t.path.tags[r.tag.toFin]).intercepted = (s.path.tags[r.tag.toFin]).intercepted + 1))

/-! ## The memory port -/

/-- R17 when the oldest forwarded request is granted, or nothing waits: the request goes out with its tag,
address, data and enables unchanged, the lockout count counts up while an internal request is eligible and
is 0 otherwise, and every waiting request is one forwarded grant nearer; nothing else changes. -/
def Obligations.ForwardedRequestIsGranted : Prop :=
  ∀ (pick : BitVec 5) (s : State),
    (∀ (r : Request) (rest : List Request), s.path.forward = r :: rest →
      ((∀ q, s.eligible q = false) ∨ s.path.lockout ≠ 16) →
      exec (.memoryPortAcceptance pick) s = .next
        { s with path := { s.path with
            forward := rest
            queues := Vector.ofFn fun q => { s.path.queues[q] with
              waiting := (s.path.queues[q]).waiting.map fun w => { w with ahead := w.ahead - 1 } }
            memoryOut := some { tag := r.tag.setWidth 8, request := { addr := r.addr, burst := r.burst } }
            lockout := if (List.finRange 8).any s.eligible then s.path.lockout + 1 else 0 } }) ∧
    (s.path.forward = [] → (∀ q, s.eligible q = false) →
      exec (.memoryPortAcceptance pick) s =
        .next { s with path := { s.path with memoryOut := none, lockout := 0 } })

/-- R17 and R18 when the turn comes to an internal request: it is that of the first requester with an eligible one,
going round from the turn position; the turn moves to the next requester and the lockout count is 0. A request that
passes the check of R18 goes out under a free tag of the pool 64-95, which it holds, and the requester's next request
is presented: a bus output write or a measurement write takes its address and contents then (R98, R209, R210), and the
block's 64 bytes are those of section 11.3. A write that fails it holds no tag and is cancelled, and the arbiter
grants again at the same acceptance, without it: a report record waits to be presented again (R34), a bus output write
has completed (R99), a label write is no longer in flight and its ring done flag stays clear (R122), a measurement
block is made again for the new window or given up with the window (R211). That it is made again behind the fault
unit's later requests and keeps whether it is the second try is the model's choice (log 21). A label write whose
window has changed while it waited fails the check wherever its address lies (R125; the model's choice, log 35). -/
def Obligations.InternalRequestIsGranted : Prop :=
  ∀ (pick : BitVec 5) (s : State) (d : Fin 8) (w : Waiting),
    let q := s.path.turn + d
    let passes := w.stale = false ∧ s.passesCheck w.purpose w.request = true
    (s.path.forward = [] ∨ s.path.lockout = 16) → s.eligible q = true →
    (∀ e : Fin 8, e < d → s.eligible (s.path.turn + e) = false) →
    (s.path.queues[q]).waiting = some w →
    (passes → ∃ t k, exec (.memoryPortAcceptance pick) s = .next t ∧ s.path.pool[(k : Fin 32)] = none ∧
      t.path.pool = s.path.pool.set k (some { purpose := w.purpose, request := w.request, stale := false }) ∧
      t.path.memoryOut = some { tag := BitVec.ofNat 8 (64 + k.val), request := w.request } ∧
      t.path.turn = q + 1 ∧ t.path.lockout = 0 ∧ t.path.forward = s.path.forward ∧
      t.path.windows = s.path.windows ∧ t.path.tags = s.path.tags ∧
      (∀ p : Fin 8, p ≠ q → t.path.queues[p] = s.path.queues[p]) ∧
      ((s.path.queues[q]).later = [] → t.path.queues[q] = { waiting := none, later := [] }) ∧
      (∀ (m : Made) (rest : List Made), (s.path.queues[q]).later = m :: rest → s.isNormal = true →
        let presented (r : MemRequest) : RequestQueue :=
          { waiting := some { purpose := m.purpose, request := r, ahead := s.path.forward.length, stale := false }
            later := rest }
        (∀ r, m.fixed = some r → t.path.queues[q] = presented r) ∧
        (∀ frame j v e, m.fixed = none → m.purpose = .busWrite frame j → s.ownedWindow .busOut = some v →
          s.mixer.busQueue.find? (fun y => y.frame == frame) = some e →
          t.path.queues[q] = presented (e.request v j)) ∧
        (∀ serial l again v, m.fixed = none → m.purpose = .measWrite serial l again →
          s.ownedWindow .meas = some v → t.path.queues[q] = presented
            { addr := beatOf (v.first + 64 * l.val), burst := fullWrite ((s.fault.buffer[l]).bytes l) })) ∧
      ChangesOnly [.path, .mixer, .fault] s t) ∧
    (¬ passes → ∃ t : State,
      ((s.path.forward ≠ [] ∨ ∀ (p : Fin 8) (v : Waiting), (t.path.queues[p]).waiting = some v →
          v.stale = false ∧ t.passesCheck v.purpose v.request = true) →
        exec (.memoryPortAcceptance pick) s = exec (.memoryPortAcceptance pick) t) ∧
      t.path.pool = s.path.pool ∧ t.path.turn = q + 1 ∧ t.path.lockout = 0 ∧
      t.path.forward = s.path.forward ∧ t.path.windows = s.path.windows ∧ t.path.tags = s.path.tags ∧
      ChangesOnly [.path, .command, .report, .mixer, .label, .fault] s t ∧
      ((s.path.queues[q]).later = [] →
        (∀ again, w.purpose = .reportPost again →
          (t.path.queues[q]).waiting = none ∧
          t.report = { s.report with post := s.report.post.map fun p => { p with presented := false } }) ∧
        (∀ frame j, w.purpose = .busWrite frame j →
          (t.path.queues[q]).waiting = none ∧
          t.mixer.busQueue = (s.mixer.busQueue.map fun e =>
              if e.frame = frame then { e with completed := e.completed + 1 } else e).filter fun e =>
            ! (decide (e.total ≤ e.presented) && decide (e.presented ≤ e.completed))) ∧
        (∀ again, w.purpose = .labelWrite again →
          (t.path.queues[q]).waiting = none ∧ t.label.inFlight = none ∧
          t.label.written = s.label.written ∧ t.label.consumed = s.label.consumed ∧
          t.label.slot = s.label.slot ∧
          ((s.ownedWindow .label).isSome → ∀ (j : Fin 32) (c c' : Clip) (x x' : Closing),
            s.label.clips[j] = some c → c.closing = some x → t.label.clips[j] = some c' →
            c'.closing = some x' → x'.ringDone = x.ringDone)) ∧
        (∀ serial l again, w.purpose = .measWrite serial l again → q = faultQueue → s.isNormal = true →
          (∀ v, s.ownedWindow .meas = some v → (t.path.queues[faultQueue]).waiting = some
            { purpose := .measWrite serial l again
              request := { addr := beatOf (v.first + 64 * l.val)
                           burst := fullWrite ((s.fault.buffer[l]).bytes l) }
              ahead := s.path.forward.length
              stale := false }) ∧
          (s.ownedWindow .meas = none → (t.path.queues[faultQueue]).waiting = none ∧
            t.fault.writes = (s.fault.writes.map fun g =>
              if g.serial = serial then { g with opened := g.opened - 1 } else g).filter
              fun g => g.opened ≠ 0)))) ∧
    (∀ (b : MeasBlock) (l : LineId),
      let bs := b.bytes l
      bs.length = 64 ∧ Holds bs 0 4 b.totals.fill.toNat ∧ Holds bs 4 4 b.totals.audio.toNat ∧
      Holds bs 8 4 b.totals.live.toNat ∧ Holds bs 12 4 b.totals.skip.toNat ∧ Holds bs 16 4 b.totals.label.toNat ∧
      Holds bs 20 4 b.totals.file.toNat ∧ Holds bs 24 4 b.totals.underruns.toNat ∧
      Holds bs 28 4 b.totals.violations.toNat ∧ Holds bs 32 4 b.totals.crcErrors.toNat ∧
      Holds bs 36 4 b.totals.losFrames.toNat ∧ Holds bs 40 4 b.totals.goodFrames.toNat ∧
      Holds bs 44 4 b.interval.toNat ∧ Holds bs 48 4 b.length ∧ Holds bs 52 4 l.val ∧
      Holds bs 56 4 b.audioCount.toNat ∧ Holds bs 60 4 0)

/-- Responses at the two ports (R2, R3, R15, R18, R201): one for a forwarded request returns to the fabric
unchanged and is counted off, with a MEMORY_ERROR fault when it is ERROR; one that nothing awaits is the
fatal cause UNKNOWN_TAG and is discarded; once the path unit or the requester has taken the entry into PASS-ONLY
mode, one for an internal request only frees its tag; an intercepted read of a tag is answered OK, of several the
oldest (the model's choice, log 37). -/
def Obligations.ResponsesAtThePorts : Prop :=
  ∀ s : State,
    (∀ (r : Response) (k : Fin 64), r.wellFormed = true → r.tag.toNat = k.val →
      0 < (s.path.tags[k]).forwarded →
      let t : State := { s with path := { s.path with
        fabricOut := some r
        tags := s.path.tags.set k { s.path.tags[k] with forwarded := (s.path.tags[k]).forwarded - 1 } } }
      exec (.memoryResponse r) s = .next
        (if r.ok then t else raiseFault .memoryError (failAt (s.path.tags[k]).address) t)) ∧
    (∀ r : Response, r.wellFormed = true →
      ((∃ k : Fin 64, r.tag.toNat = k.val ∧ (s.path.tags[k]).forwarded = 0) ∨
       (64 ≤ r.tag.toNat ∧ s.heldBy r.tag = none)) →
      ∃ t, exec (.memoryResponse r) s = .next t ∧ ChangesOnly [.path, .fault] s t ∧
        t.fault.mode = .passOnly ∧ t.path.fabricOut = s.path.fabricOut ∧ t.path.tags = s.path.tags ∧
        t.path.pool = s.path.pool ∧
        (s.isNormal = true → t.fault.cause = some (.unknownTag r.tag)) ∧
        (s.isNormal = false →
          t.fault = { s.fault with further := min (s.fault.further + 1) 255 } ∧ t.path = s.path)) ∧
    (∀ (r : Response) (k : Fin 32) (i : Issued), r.wellFormed = true → s.heldBy r.tag = some (k, i) →
      (s.path.stopped = true ∨ s.requesterStopped i.purpose = true) →
      exec (.memoryResponse r) s = .next { s with path := { s.path with pool := s.path.pool.set k none } }) ∧
    (∀ (tag : BitVec 6) (before after : List Intercepted) (x : Intercepted),
      s.path.intercepted = before ++ x :: after → x.tag = tag → (∀ y ∈ before, y.tag ≠ tag) →
      let t := s.path.tags[tag.toFin]
      let tags := s.path.tags.set tag.toFin { t with intercepted := t.intercepted - 1 }
      exec (.interceptedReadResponse tag) s = .next
        { s with path := { s.path with
            intercepted := before ++ after
            tags := tags
            fabricOut := some { tag := tag.setWidth 8, ok := true, data := x.beats } } })

/-- R18: a memory response with the tag of an internal request is handed to the requester that owns it: it is
that requester's own return event. That the two rows of the table are one event is the model's choice (log 13).
In either mode, until the path unit or the requester has taken the entry into PASS-ONLY mode, the tag returns to
the pool, an ERROR makes a MEMORY_ERROR fault with the request's address, which the fault unit takes in NORMAL
mode only, and the requester takes the response (R18, R199, R201). That the fault is taken before the requester
reacts, which shows where a label write's return makes an INTERNAL_PARITY fault of its own, is the model's choice
(log 46). -/
def Obligations.ResponsesReachTheirRequester : Prop :=
  ∀ (r : Response) (k : Fin 32) (i : Issued) (s : State), s.heldBy r.tag = some (k, i) →
    exec (.memoryResponse r) s = exec (returnCommand i.purpose r) s ∧
    (r.wellFormed = true → i.fits r = true → s.path.stopped = false → s.requesterStopped i.purpose = false →
      let freed : State := { s with path := { s.path with pool := s.path.pool.set k none } }
      exec (.memoryResponse r) s = .next (internalReturned i r
        (if r.ok then freed
        else if s.isNormal then faultedState 1 (failAt i.request.addr) freed else freed)))

/-- R16: a requester's requests are presented one at a time in the order they are made. With none waiting the
request is presented, behind what is in the forward queue; with one waiting it comes after those made before.
Nothing is presented in PASS-ONLY mode. R25: a completion makes the completion write at the record's slot
with enables on the completion code and result fields only. -/
def Obligations.RequestsAreMadeInOrder : Prop :=
  (∀ (q : Fin 8) (m : Made) (r : MemRequest) (s : State), s.isNormal = true → m.fixed = some r →
    (∀ f k, m.purpose ≠ .busWrite f k) →
    let x := s.path.queues[q]
    (x.waiting = none → x.later = [] → makeRequest q m s = s.setQueue q
      { waiting := some { purpose := m.purpose, request := r, ahead := s.path.forward.length, stale := false }
        later := [] }) ∧
    (x.waiting.isSome = true → makeRequest q m s = s.setQueue q
      { waiting := x.waiting, later := x.later ++ [m] })) ∧
  (∀ (q : Fin 8) (m : Made) (s : State), s.isNormal = false → makeRequest q m s = s) ∧
  (∀ (c : Completion) (result : Nat) (s : State), s.isNormal = true → s.command.stopped = false →
    (s.path.queues[commandQueue]) = { waiting := none, later := [] } →
    let beat : Beat :=
      { data := BitVec.ofNat 64 (2 ^ 16 * c.code + 2 ^ 32 * (result % 2 ^ 32)), enables := 0xF4 }
    let write : MemRequest :=
      { addr := beatOf (s.controlPage + 0x0C00 + 32 * (s.command.executing.toNat % 16))
        burst := .write [beat] }
    complete c result s =
      ({ s with command := { s.command with
          state := .completing, handed := none, gather := none } }).setQueue commandQueue
        { waiting := some { purpose := .completionWrite false, request := write,
                            ahead := s.path.forward.length, stale := false }
          later := [] })

/-! ## Reports -/

/-- An event offered (R30, R31): after one in NORMAL mode the queue holds a record of the event's pair; when
there was none it is new, with repeat count 1, the detail of the event, and the timecode and audio frame
counter as they stand, before every record that is not FAULT for a FAULT event and at the tail for another;
when there was one, that record keeps its place, its timecode and its counter, its repeat count goes up,
saturating, and the details join by their kind (R31, section 2.5): counts by saturating sum, sets by union, all
else by the latest. Nothing but the queue changes. In PASS-ONLY mode an event joins a record of its pair as before
while the report unit has not taken the entry, and makes no record (R37, R201). -/
def Obligations.OfferedEventMakesOrJoinsARecord : Prop :=
  ∀ (object : Nat) (d : Detail) (s : State),
    let sum (a b : Nat) : Nat := min (a + b) 4294967295
    let joined (old : Detail) : Detail :=
      match old, d with
      | .stream a c f _, .stream a' c' f' p => .stream (sum a a') (sum c c') (sum f f') p
      | .audioUnderrun a, .audioUnderrun b => .audioUnderrun (a ||| b)
      | .busSaturation a n, .busSaturation b m => .busSaturation (a ||| b) (sum n m)
      | .markOverwrite a, .markOverwrite b => .markOverwrite (a ||| b)
      | .clipRefused a n, .clipRefused b m => .clipRefused (a ||| b) (sum n m)
      | .fault _ n, .fault a m => .fault a (sum n m)
      | _, _ => d
    ∃ queue, offer object d s = { s with report := { s.report with queue := queue } } ∧
      (s.isNormal = false → s.report.stopped = true → queue = s.report.queue) ∧
      (s.isNormal = false → (∀ y ∈ s.report.queue, y.pair ≠ (d.kind, object)) → queue = s.report.queue) ∧
      (s.isNormal = true ∨ s.report.stopped = false →
        ∀ before after : List Record, ∀ q : Record, s.report.queue = before ++ q :: after →
        q.pair = (d.kind, object) → (∀ y ∈ before ++ after, y.pair ≠ (d.kind, object)) →
        queue = before ++ { q with repeats := min (q.repeats + 1) 65535, detail := joined q.detail } :: after) ∧
      (s.isNormal = true → (∀ y ∈ s.report.queue, y.pair ≠ (d.kind, object)) →
        (d.kind ≠ 10 → queue = s.report.queue ++ [s.eventRecord object d]) ∧
        (d.kind = 10 → ∀ faults others : List Record, s.report.queue = faults ++ others →
          (∀ y ∈ faults, y.detail.kind = 10) → (∀ y ∈ others, y.detail.kind ≠ 10) →
          queue = faults ++ s.eventRecord object d :: others))

/-! ## Values handed over by the path unit -/

/-- The command unit takes a producer count value (R22, R23): 16 or fewer pending commands replace the count;
more move the consumer count to 16 behind it and make a CMD_OVERRUN fault. In IDLE with different counts it
then presents the read of the record at the consumer count. -/
def Obligations.ProducerCountIsTaken : Prop :=
  ∀ (v : Count16) (rest : List Count16) (s : State), s.command.inbox = v :: rest →
    s.command.stopped = false → s.isNormal = true →
    let taken : State :=
      if (v - s.command.consumer).toNat ≤ 16 then
        { s with command := { s.command with inbox := rest, producer := v } }
      else
        faultedState 3 (.address (BitVec.ofNat 36 (s.controlPage + 0x0E00)))
          { s with command := { s.command with inbox := rest, producer := v, consumer := v - 16 } }
    let read : MemRequest :=
      { addr := beatOf (s.controlPage + 0x0C00 + 32 * (taken.command.consumer.toNat % 16)), burst := .read 4 }
    exec .producerCountWrite s = .next
      (if s.command.state = .idle ∧ v ≠ taken.command.consumer then
        makeRequest commandQueue { purpose := .recordRead, fixed := some read }
          { taken with command := { taken.command with
              state := .fetching, executing := taken.command.consumer } }
      else taken)

/-- The report unit and the label unit take a consumed count value v (R35, R123): with d = written − v and
the limit of the ring's records, less one while a write is under way, the consumed count becomes v for d at
most the limit, written − limit for d above it and below 32,768, and written for d of 32,768 or more. No
other value changes. -/
def Obligations.ConsumedCountsAreClamped : Prop :=
  ∀ (v : Count16) (rest : List Count16) (s : State),
    (s.report.inbox = v :: rest → s.report.stopped = false →
      let limit := s.reportRing - if s.report.post.isSome then 1 else 0
      let d := (s.report.written - v).toNat
      exec .reportConsumedCountWrite s = .next { s with report := { s.report with
        inbox := rest
        consumed := if d ≤ limit then v
          else if d < 32768 then s.report.written - BitVec.ofNat 16 limit else s.report.written } }) ∧
    (s.label.inbox = v :: rest → s.label.stopped = false →
      let limit := s.labelRing - if s.label.inFlight.isSome then 1 else 0
      let d := (s.label.written - v).toNat
      exec .labelConsumedCountWrite s = .next { s with label := { s.label with
        inbox := rest
        consumed := if d ≤ limit then v
          else if d < 32768 then s.label.written - BitVec.ofNat 16 limit else s.label.written } })

/-- The mixer takes a gain value (R74): the target gain of its index becomes the value, and no other. -/
def Obligations.GainValueBecomesTheTarget : Prop :=
  ∀ (k : Fin 256) (g : BitVec 16) (rest : List (Fin 256 × BitVec 16)) (s : State),
    s.mixer.gains = (k, g) :: rest → s.mixer.stopped = false →
    ∃ t, exec .gainFieldWrite s = .next t ∧
      t = { s with mixer := { s.mixer with gains := rest, targets := t.mixer.targets } } ∧
      t.mixer.targets[k] = g ∧ ∀ j : Fin 256, j ≠ k → t.mixer.targets[j] = s.mixer.targets[j]

/-- A block takes the entry into PASS-ONLY mode (R18, R27, R37, R62, R85, R127, R149, R175, R196): it stops,
its waiting requests are withdrawn, with the lockout count 0 when no internal request is eligible any more (R17),
and it keeps everything else. A line's output becomes the hold signal, or stays no signal with rate class OFF, where the
bits taken and not sent are dropped and the pair rests at zero level (R181); bits and symbols kept for a retransmission
or a loop that the output no longer has go too. In NORMAL mode there is no entry to take (the model's choice, log 4). -/
def Obligations.EveryBlockTakesThePassOnlyEntry : Prop :=
  ∀ s : State,
    (s.isNormal = true → ∀ b, exec (.passOnlyEntry b) s = .next s) ∧
    (s.isNormal = false →
      let none' : RequestQueue := { waiting := none, later := [] }
      let settled (t : State) : State :=
        if (List.finRange 8).any t.eligible then t else { t with path := { t.path with lockout := 0 } }
      exec (.passOnlyEntry .path) s = .next { s with path := { s.path with
        stopped := true, lockout := 0, queues := Vector.replicate 8 none' } } ∧
      exec (.passOnlyEntry .command) s = .next
        (settled (({ s with command := { s.command with stopped := true } }).setQueue commandQueue none')) ∧
      exec (.passOnlyEntry .report) s = .next
        (settled (({ s with report := { s.report with stopped := true } }).setQueue reportQueue none')) ∧
      exec (.passOnlyEntry .timing) s = .next { s with timing := { s.timing with stopped := true } } ∧
      exec (.passOnlyEntry .mixer) s = .next
        (settled (({ s with mixer := { s.mixer with stopped := true } }).setQueue mixerQueue none')) ∧
      exec (.passOnlyEntry .label) s = .next
        (settled (({ s with label := { s.label with stopped := true } }).setQueue labelQueue none')) ∧
      exec (.passOnlyEntry .governor) s = .next { s with governor := { s.governor with stopped := true } } ∧
      ∀ l : LineId, ∃ t, exec (.passOnlyEntry (.line l)) s = .next t ∧ ChangesOnly [.path, .lines] s t ∧
        OtherLinesSame l s t ∧ t.path = (settled (s.setQueue (lineQueue l) none')).path ∧
        (let x := s.line l
          let silent := x.applied.rate = .off;
          t.line l = { x with
            stopped := true
            coder := if silent then { x.coder with pending := 0, out := [] } else x.coder
            level := if silent then .space else x.level
            retransmit := []
            looped := if x.applied.loopback = .localLoop then x.looped else [] }) ∧
        (t.line l).output = (if (s.line l).applied.rate = .off then .noSignal else .hold))

/-! ## The command unit -/

/-- A record read returns (R23, R24): an opcode not in the table completes INVALID with 0xFFFF, an object
above its range with 0xFFFD, an ERROR with 0xFFFE after its MEMORY_ERROR fault; any other record is handed to
its owner, with the opcode, object and parameter it carries, and the command unit waits in EXECUTING. -/
def Obligations.RecordIsDecodedAndHandedOut : Prop :=
  ∀ (r : Response) (k : Fin 32) (i : Issued) (s : State), Answers r k i s → i.purpose = .recordRead →
    s.command.stopped = false →
    let bs := bytesOfWords r.data
    let freed : State := { s with path := { s.path with pool := s.path.pool.set k none } }
    let executing : State := { freed with command := { s.command with state := .executing } }
    (r.ok = false → exec (.recordReadReturn r) s = .next
      (complete .invalid 0xFFFE (faultedState 1 (failAt i.request.addr) freed))) ∧
    (r.ok = true →
      match objectLimit (byteAt bs 0) with
      | none => exec (.recordReadReturn r) s = .next (complete .invalid 0xFFFF executing)
      | some limit =>
        if limit ≤ byteAt bs 1 then exec (.recordReadReturn r) s = .next (complete .invalid 0xFFFD executing)
        else ∃ h : Handed, h.opcode = byteAt bs 0 ∧ (∀ o, h.object? = some o → o = byteAt bs 1) ∧
          (∀ p, h.parameter? = some p → p = BitVec.ofNat 64 (field bs 8 8)) ∧
          exec (.recordReadReturn r) s =
            .next { executing with command := { executing.command with handed := some h } })

/-- A completion write returns (R25, R26): a first ERROR presents the same write once more, after its
MEMORY_ERROR fault; OK, or a second ERROR, completes the command: the consumer count goes to one past the
command's count if it still equals it, the command unit is IDLE, and when the counts differ the next record
is fetched. -/
def Obligations.CompletionWriteEndsTheCommand : Prop :=
  ∀ (r : Response) (k : Fin 32) (i : Issued) (again : Bool) (s : State), Answers r k i s →
    i.purpose = .completionWrite again → s.command.stopped = false →
    let freed : State := { s with path := { s.path with pool := s.path.pool.set k none } }
    let answered : State := if r.ok then freed else faultedState 1 (failAt i.request.addr) freed
    let consumer : Count16 :=
      if s.command.consumer = s.command.executing then s.command.executing + 1 else s.command.consumer
    let idle : State := { answered with command := { s.command with state := .idle, consumer := consumer } }
    let read : MemRequest :=
      { addr := beatOf (s.controlPage + 0x0C00 + 32 * (consumer.toNat % 16)), burst := .read 4 }
    exec (.completionWriteReturn r) s = .next
      (if r.ok = false ∧ again = false then
        makeRequest commandQueue { purpose := .completionWrite true, fixed := some i.request } answered
      else if s.command.producer = consumer then idle
      else makeRequest commandQueue { purpose := .recordRead, fixed := some read }
        { idle with command := { idle.command with state := .fetching, executing := consumer } })

/-- APPLY_WINDOWS makes two reads of 16 beats from the window table, APPLY_SETTINGS one read of 8 beats from
its group, or sixteen of 16 beats from the route table, in address order (R11, R28). -/
def Obligations.ApplyCommandsMakeTheirReads : Prop :=
  ∀ s : State, s.command.stopped = false →
    let started (group : Option (Fin 10)) (total : Nat) : State :=
      { s with command := { s.command with
          handed := none
          gather := some { group := group, total := total, returned := [], failed := false } } }
    let read (p : Purpose) (offset beats : Nat) : Made :=
      { purpose := p, fixed := some { addr := beatOf (s.controlPage + offset), burst := .read beats } }
    (s.command.handed = some .applyWindows → exec .applyWindows s = .next
      (makeRequest commandQueue (read (.tableRead 1) 0x0080 16)
        (makeRequest commandQueue (read (.tableRead 0) 0x0000 16) (started none 2)))) ∧
    (∀ g : Fin 10, s.command.handed = some (.applySettings g) → g.val ≠ 9 → exec .applySettings s = .next
      (makeRequest commandQueue (read (.settingsRead 0) (0x0100 + 64 * g.val) 8) (started (some g) 1))) ∧
    (s.command.handed = some (.applySettings 9) → exec .applySettings s = .next
      ((List.range 16).foldl
        (fun t k => makeRequest commandQueue (read (.settingsRead k) (0x0400 + 128 * k) 16) t)
        (started (some 9) 16)))

/-- A read of the window table returns (R11, R12). One that is not the last is noted, and with the last the table is
decided: that an ERROR before is acted on only then is the model's choice (log 15). With an ERROR among the reads the
command completes INVALID with 0xFFFE; with an entry that fails a condition of R11, INVALID with the index of the
first such entry: in both cases the applied table stays. Otherwise the table read is the applied table, with no parity
error held in it, each owner reacts to it, and the command completes ACCEPTED. The mixer keeps its queue, or without a
BUS_OUT window drops the writes not presented and the entries with none outstanding (R100). A REPORT or LABEL window
of another place sets its ring's counts to 0, and the responses of its issued writes count as cancelled (R34, R125); a
waiting label write is stale too (the model's choice, log 35). With the LABEL window gone each released record still
owed to the ring has ring done set, but one in flight (R125). A CODED window of another place empties its stream and
offers a STREAM event with a flush count (R147). With the MEAS window gone the measurement is INACTIVE and block
writes not presented are dropped; with another MEAS window the block writes not presented take its address, and one that
was to repeat a write takes the buffer's contents with it (R211; the contents are the model's choice, log 21). -/
def Obligations.WindowTableIsAppliedOrRefused : Prop :=
  ∀ (r : Response) (k : Fin 32) (i : Issued) (index : Nat) (g : Gather) (s : State), Answers r k i s →
    i.purpose = .tableRead index → s.command.stopped = false → s.path.stopped = false →
    s.command.gather = some g →
    let freed : State := { s with path := { s.path with pool := s.path.pool.set k none } }
    let answered : State := if r.ok then freed else faultedState 1 (failAt i.request.addr) freed
    let g' : Gather :=
      { g with returned := g.returned ++ [(index, r.data)], failed := g.failed || !r.ok }
    let bytes := (List.range g.total).flatMap fun h =>
      bytesOfWords (((g'.returned.find? fun y => y.1 == h).map (·.2)).getD [])
    let table := windowTable bytes
    (g.returned.length + 1 < g.total → exec (.windowTableReadReturn r) s = .next
      { answered with command := { s.command with gather := some g' } }) ∧
    (g.returned.length + 1 = g.total →
    (g'.failed = true →
      exec (.windowTableReadReturn r) s = .next (complete .invalid 0xFFFE answered)) ∧
    (g'.failed = false → ∀ e, firstBadEntry s.controlPage [] table.toList = some e →
      exec (.windowTableReadReturn r) s = .next (complete .invalid e answered)) ∧
    (g'.failed = false → firstBadEntry s.controlPage [] table.toList = none →
      ∃ u, exec (.windowTableReadReturn r) s = .next (complete .accepted 0 u) ∧
        u.path.windows = table ∧ u.path.parityBad = Vector.replicate 16 false ∧ u.timing = s.timing ∧
        u.command = s.command ∧ u.lines = s.lines ∧ u.path.forward = s.path.forward ∧
        u.path.tags = s.path.tags ∧ u.path.intercepted = s.path.intercepted ∧
        (s.mixer.stopped = false →
          (u.path.queues[mixerQueue]).waiting = (s.path.queues[mixerQueue]).waiting ∧
          (u.ownedWindow .busOut ≠ none →
            u.mixer = s.mixer ∧ u.path.queues[mixerQueue] = s.path.queues[mixerQueue]) ∧
          (u.ownedWindow .busOut = none → (u.path.queues[mixerQueue]).later = [] ∧
            u.mixer = { s.mixer with
              busQueue := (s.mixer.busQueue.map fun e => { e with total := e.presented }).filter fun e =>
                decide (e.completed < e.presented) })) ∧
        (s.report.stopped = false →
          u.report.post = s.report.post ∧ u.report.inbox = s.report.inbox ∧
          (placeOf (s.ownedWindow .report) = placeOf (u.ownedWindow .report) →
            u.report.written = s.report.written ∧ u.report.consumed = s.report.consumed ∧
            u.report.slot = s.report.slot) ∧
          (placeOf (s.ownedWindow .report) ≠ placeOf (u.ownedWindow .report) →
            u.report.written = 0 ∧ u.report.consumed = 0 ∧ u.report.slot = 0 ∧
            ∀ (h : Fin 32) (j : Issued) (again : Bool), s.path.pool[h] = some j →
              j.purpose = .reportPost again → u.path.pool[h] = some { j with stale := true })) ∧
        (s.label.stopped = false →
          (placeOf (s.ownedWindow .label) = placeOf (u.ownedWindow .label) → u.label = s.label ∧
            u.path.queues[labelQueue] = s.path.queues[labelQueue]) ∧
          (placeOf (s.ownedWindow .label) ≠ placeOf (u.ownedWindow .label) →
            u.label.written = 0 ∧ u.label.consumed = 0 ∧ u.label.slot = 0 ∧
            u.label.applied = s.label.applied ∧ u.label.staged = s.label.staged ∧
            (∀ (h : Fin 32) (j : Issued) (again : Bool), s.path.pool[h] = some j →
              j.purpose = .labelWrite again → u.path.pool[h] = some { j with stale := true }) ∧
            (∀ w, (s.path.queues[labelQueue]).waiting = some w →
              (u.path.queues[labelQueue]).waiting = some { w with stale := true }) ∧
            ∀ (j : Fin 32) (c : Clip) (x : Closing), j ∈ s.label.order → s.label.clips[j] = some c →
              c.closing = some x →
              (u.ownedWindow .label = none → x.hold = 0 → x.ringDone = false →
                s.label.inFlight ≠ some (some j) →
                (x.uplinkDone = true → u.label.clips[j] = none ∧ j ∉ u.label.order) ∧
                ∀ c', u.label.clips[j] = some c' → ∃ x', c'.closing = some x' ∧ x'.ringDone = true) ∧
              (u.ownedWindow .label ≠ none ∨ x.hold ≠ 0 ∨ s.label.inFlight = some (some j) →
                ∀ c' x', u.label.clips[j] = some c' → c'.closing = some x' → x'.ringDone = x.ringDone))) ∧
        (s.governor.stopped = false → ∀ n : Fin 4,
          let x := s.stream n
          let owed := x.pictures.filter fun p => p.state != .corrupt
          let changed := (s.codedWindow n).isSome ∧ placeOf (s.codedWindow n) ≠ placeOf (u.codedWindow n)
          (¬ changed → u.stream n = x) ∧
          (changed → u.stream n = { x with
              pictures := []
              fill := 0
              keyRequest := true
              claim := x.claim.map fun c => { c with isVoid := true }
              notices := (match owed.head?, owed.getLast? with
                | some p, some q => addNotice p.number q.number
                    (owed.any fun y => decide (y.unsent < y.length)) x.notices
                | _, _ => x.notices) } ∧
            ∃ q ∈ u.report.queue, q.object = n.val ∧
              ∃ d c f p, q.detail = .stream d c f p ∧ 1 ≤ f)) ∧
        u.fault.totals = s.fault.totals ∧ u.fault.number = s.fault.number ∧
        u.fault.buffer = s.fault.buffer ∧ u.fault.interval = s.fault.interval ∧
        (u.path.queues[faultQueue]).waiting = (s.path.queues[faultQueue]).waiting ∧
        (let kept := u.fault.state = s.fault.state ∧ u.fault.frames = s.fault.frames ∧
            u.fault.stagedInterval = s.fault.stagedInterval ∧ u.fault.writes = s.fault.writes
          let reAimed (m : Made) : Made :=
            match m.purpose with
            | .measWrite _ _ _ => { m with fixed := none }
            | _ => m;
          (placeOf (s.ownedWindow .meas) = placeOf (u.ownedWindow .meas) →
            kept ∧ (u.path.queues[faultQueue]).later = (s.path.queues[faultQueue]).later) ∧
          (placeOf (s.ownedWindow .meas) ≠ placeOf (u.ownedWindow .meas) → u.ownedWindow .meas ≠ none →
            kept ∧ (u.path.queues[faultQueue]).later =
              (s.path.queues[faultQueue]).later.map reAimed)) ∧
        (s.ownedWindow .meas ≠ none → u.ownedWindow .meas = none → u.fault.state = .inactive ∧
          u.fault.frames = 0 ∧ u.fault.stagedInterval = none ∧
          (u.path.queues[faultQueue]).later = [])))

/-- A read of a settings group returns (R28). One that is not the last is noted, and with the last the group is
decided; that an ERROR before is acted on only then is the model's choice (log 15). With an ERROR the command
completes INVALID with 0xFFFE and nothing is staged. Otherwise the group's owner judges it by its own rule: R57 for
TIMING, R103 for LABELS, R143 for STREAM, R151 and R152 for LINE, R75 for ROUTES. The first item that fails, in the
order of the rule's table, gives the result word of an INVALID completion, and a refused group leaves every staged
copy as it was; a group that passes is stored as the group's staged copy, with what its bytes hold, and nothing is
applied. The codes are those of section 3.4 and of R103 and R151. -/
def Obligations.SettingsGroupIsStagedOrRefused : Prop :=
  (∀ c : Nat,
    VideoRate.ofCode c = ([.r25, .r30, .r50, .r60, .r30df, .r60df] : List VideoRate)[c]? ∧
    MarkFunction.ofCode c =
      ([.none, .markIn, .markOut, .toggle, .good, .split] : List MarkFunction)[c]? ∧
    EdgeSelection.ofCode c = ([.off, .rising, .falling, .both] : List EdgeSelection)[c]? ∧
    RateClass.ofCode c = ([.off, .a, .b, .c] : List RateClass)[c]? ∧
    ZeroRun.ofCode c = ([.off, .z3, .z4] : List ZeroRun)[c]? ∧
    Loopback.ofCode c = ([.none, .localLoop, .remote] : List Loopback)[c]?) ∧
  ∀ (r : Response) (k : Fin 32) (i : Issued) (index : Nat) (g : Gather) (n : Fin 10) (s : State),
    Answers r k i s → i.purpose = .settingsRead index → s.command.stopped = false →
    s.command.gather = some g → g.group = some n → s.ownerStopped n = false →
    let freed : State := { s with path := { s.path with pool := s.path.pool.set k none } }
    let g' : Gather :=
      { g with returned := g.returned ++ [(index, r.data)], failed := g.failed || !r.ok }
    let bs := (List.range g.total).flatMap fun h =>
      bytesOfWords (((g'.returned.find? fun y => y.1 == h).map (·.2)).getD [])
    let b (o : Nat) : Nat := byteAt bs o
    let after (t : State) : Prop := exec (.settingsReadReturn r) s = .next t
    let answered : State := if r.ok then freed else faultedState 1 (failAt i.request.addr) freed
    (g.returned.length + 1 < g.total →
      after { answered with command := { s.command with gather := some g' } }) ∧
    (g.returned.length + 1 = g.total →
    (g'.failed = true → after (complete .invalid 0xFFFE answered)) ∧
    (g'.failed = false → n.val = 0 →
      (5 < b 0 → after (complete .invalid 1 freed)) ∧
      (b 0 ≤ 5 → ∃ rate, VideoRate.ofCode (b 0) = some rate ∧ after (complete .accepted 0
        { freed with timing := { s.timing with stagedRate := some rate } }))) ∧
    (g'.failed = false → n.val = 1 →
      let inputs : List (Nat × Bool) := (List.range 6).flatMap fun j =>
        [(3 * j + 1, decide (5 < b (3 * j))), (3 * j + 2, decide (7 < b (3 * j + 1))),
         (3 * j + 3, decide (3 < b (3 * j + 2)))]
      let buses : List (Nat × Bool) := (List.range 8).map fun c =>
        (19 + c, decide (16 ≤ b (18 + c) ∧ b (18 + c) ≤ 254))
      let items := inputs ++ buses ++ [(27, decide (250 < b 26))]
      match items.find? fun y => y.2 with
      | some y => after (complete .invalid y.1 freed)
      | none => ∃ x : LabelSettings,
          after (complete .accepted 0 { freed with label := { s.label with staged := some x } }) ∧
          x.goodHold = b 26 ∧
          (∀ j : Fin 6, MarkFunction.ofCode (b (3 * j.val)) = some (x.inputs[j]).function ∧
            (x.inputs[j]).camera.val = b (3 * j.val + 1) ∧
            EdgeSelection.ofCode (b (3 * j.val + 2)) = some (x.inputs[j]).edge) ∧
          ∀ c : Fin 8, (x.buses[c]).map Fin.val = if b (18 + c.val) = 255 then none else some (b (18 + c.val))) ∧
    (g'.failed = false → ∀ m : Fin 4, n.val = 2 + m.val →
      let camera := b 1
      let capacity := field bs 4 4
      let target := field bs 8 4
      let names (y : StreamSettings) : Bool := y.camera.any fun c => c.val == camera
      let inUse : Bool := (List.finRange 4).any fun o => o != m &&
        ((s.stream o).applied.any names || (s.stream o).staged.any fun y => y.any names)
      let stage (y : Option StreamSettings) : State :=
        complete .accepted 0 (freed.setStream m { s.stream m with staged := some y })
      (b 0 = 0 → after (stage none)) ∧
      (1 < b 0 → after (complete .invalid 1 freed)) ∧
      (b 0 = 1 →
        let items : List (Nat × Bool) :=
          [(2, decide (8 ≤ camera ∧ camera ≤ 254)), (3, decide (capacity < 65536 ∨ 16777216 < capacity)),
           (4, decide (target = 0 ∨ capacity ≤ target)), (5, decide (63 < b 12)),
           (6, decide (b 13 = 0 ∨ 8 < b 13)), (7, inUse)]
        match items.find? fun y => y.2 with
        | some y => after (complete .invalid y.1 freed)
        | none => ∃ x : StreamSettings, after (stage (some x)) ∧
            x.camera.map Fin.val = (if camera = 255 then none else some camera) ∧ x.capacity = capacity ∧
            x.target = target ∧ x.base = b 12 ∧ x.step = b 13)) ∧
    (g'.failed = false → ∀ l : LineId, n.val = 6 + l.val →
      let busBad (j : Nat) : Bool := decide (j < b 3) &&
        (decide (15 < b (4 + j)) || (List.range j).any fun h => b (4 + h) == b (4 + j))
      let others (test : LineSettings → Bool) : Bool := (List.finRange 3).any fun m => m != l &&
        (test (s.line m).applied || (s.line m).staged.any test)
      let items : List (Nat × Bool) :=
        [(1, decide (3 < b 0)), (2, decide (2 < b 1)), (3, decide (2 < b 2)), (4, decide (3 < b 3)),
         (5, busBad 0), (6, busBad 1), (7, busBad 2), (8, decide (4 ≤ b 7 ∧ b 7 ≤ 254)),
         (9, decide (1 < b 8)), (10, decide (1 < b 9)),
         (11, others fun y => y.liveStream.any fun h => h.val == b 7),
         (12, b 8 == 1 && others fun y => y.carriesLabels)]
      match items.find? fun y => y.2 with
      | some y => after (complete .invalid y.1 freed)
      | none => ∃ x : LineSettings,
          (RateClass.ofCode (b 0) = some x.rate ∧ ZeroRun.ofCode (b 1) = some x.code ∧
            Loopback.ofCode (b 2) = some x.loopback ∧
            x.buses.map Fin.val = (List.range (b 3)).map (fun j => b (4 + j)) ∧
            x.liveStream.map Fin.val = (if b 7 = 255 then none else some (b 7)) ∧
            x.carriesLabels = (b 8 == 1) ∧ x.returnEnabled = (b 9 == 1)) ∧
          if ((s.line l).function = .active ∨ (s.line l).function = .halting) ∧
              (x.rate ≠ (s.line l).applied.rate ∨ x.code ≠ (s.line l).applied.code) then
            after (complete .conflict 0 freed)
          else after (complete .accepted 0 (freed.setLine l { s.line l with staged := some x }))) ∧
    (g'.failed = false → n.val = 9 →
      let enabled (j : Fin 256) : Bool := b (8 * j.val + 4) % 2 == 1
      let bus (j : Fin 256) : Nat := b (8 * j.val + 2)
      let source (j : Fin 256) : Nat := b (8 * j.val + 3)
      let lower (j : Fin 256) : List (Fin 256) :=
        (List.finRange 256).filter fun h => decide (h < j) && enabled h && bus h == bus j
      let reason (j : Fin 256) : Nat :=
        if 15 < bus j then 1 else if 63 < source j then 2
        else if (lower j).any fun h => source h == source j then 3
        else if 24 ≤ (lower j).length then 4 else 0
      match (List.finRange 256).find? fun j => enabled j && reason j != 0 with
      | some j => after (complete .invalid (256 * reason j + j.val) freed)
      | none => after (complete .accepted 0 { freed with mixer := { s.mixer with
          staged := some (((List.finRange 256).filter enabled).map fun j =>
            { index := j, bus := Fin.ofNat 16 (bus j), source := Fin.ofNat 64 (source j),
              invert := b (8 * j.val + 4) / 2 % 2 == 1 }) } })))

/-! ## Commands of the timing unit, the label unit and the governor -/

/-- JAM_TIMECODE (R55): the first field out of range, or a skipped frame, names the result word of INVALID;
a valid timecode of the rate in force becomes the staged jam. CLIP_MARK (R118): a function other than 1 to 5
completes INVALID with result word 1; another fills capture slot 6 with the audio frame counter, and a FULL
slot is marked overwritten and reported (R59, R60); once the timing unit has stopped, its slots keep what they
hold (R62). -/
def Obligations.JamAndClipMarkAreTaken : Prop :=
  (∀ (p : BitVec 64) (s : State), s.command.handed = some (.jamTimecode p) → s.timing.stopped = false →
    let ff := p.toNat % 256
    let ss := p.toNat / 2 ^ 8 % 256
    let mm := p.toNat / 2 ^ 16 % 256
    let hh := p.toNat / 2 ^ 24 % 256
    exec .jamTimecode s = .next
      (if 23 < hh then complete .invalid 1 s
      else if 59 < mm then complete .invalid 2 s
      else if 59 < ss then complete .invalid 3 s
      else if s.timing.rate.frameBase ≤ ff then complete .invalid 4 s
      else if ss = 0 ∧ mm % 10 ≠ 0 ∧ ff < s.timing.rate.skipped then complete .invalid 5 s
      else complete .accepted 0
        { s with timing := { s.timing with jam := some { hh := hh, mm := mm, ss := ss, ff := ff } } })) ∧
  (∀ (camera : Fin 8) (p : BitVec 64) (s : State), s.command.handed = some (.clipMark camera p) →
    s.label.stopped = false →
    (p.toNat % 256 = 0 ∨ 5 < p.toNat % 256 → exec .clipMark s = .next (complete .invalid 1 s)) ∧
    (1 ≤ p.toNat % 256 → p.toNat % 256 ≤ 5 → ∃ f, MarkFunction.ofCode (p.toNat % 256) = some f ∧
      let full := (s.timing.slots[(6 : Fin 7)]).isSome
      let filled : Capture :=
        { audioCount := s.timing.audioCount, overwritten := full, mark := some (f, camera) }
      let t : State :=
        { s with timing := { s.timing with slots := s.timing.slots.set (6 : Fin 7) (some filled) } }
      exec .clipMark s = .next (complete .accepted 0
        (if s.timing.stopped then s else if full then offer 0 (.markOverwrite 64) t else t))))

/-- STREAM_FLUSH (R146): with no CODED window it completes NOT_OPERATIONAL, with a result word of 0 (the model's
choice, log 43). Otherwise the picture queue is empty and F is 0, a claim held is void, the key request is set, one
notice stands for the QUEUED and SENDING pictures discarded, or the newest notice is widened to cover them when four
are held (R133), H is the base hint of the applied settings, a STREAM event with a flush count of 1 is offered, and
the command completes ACCEPTED. Other streams are unchanged. -/
def Obligations.StreamFlushEmptiesTheStream : Prop :=
  ∀ (n : Fin 4) (s : State), s.command.handed = some (.streamFlush n) → s.governor.stopped = false →
    (s.codedWindow n = none → exec .streamFlush s = .next (complete .notOperational 0 s)) ∧
    (s.codedWindow n ≠ none → ∃ x : Stream,
      exec .streamFlush s = .next
        (complete .accepted 0 (offer n.val (.stream 0 0 1 (s.stream n).counter) (s.setStream n x))) ∧
      x.pictures = [] ∧ x.fill = 0 ∧ x.keyRequest = true ∧ x.counter = (s.stream n).counter ∧
      x.applied = (s.stream n).applied ∧ x.staged = (s.stream n).staged ∧
      x.lastAdmitted = (s.stream n).lastAdmitted ∧
      x.claim = (s.stream n).claim.map (fun c => { c with isVoid := true }) ∧
      (∀ g, (s.stream n).applied = some g → x.hint = g.base) ∧
      ((s.stream n).applied = none → x.hint = (s.stream n).hint) ∧
      let owed := (s.stream n).pictures.filter fun p => p.state != .corrupt
      (owed = [] → x.notices = (s.stream n).notices) ∧
      let begun := owed.any fun y => decide (y.unsent < y.length)
      (∀ p q : Picture, owed.head? = some p → owed.getLast? = some q → (s.stream n).notices.length < 4 →
        x.notices =
          (s.stream n).notices ++ [{ first := p.number, last := q.number, isPartial := begun }]) ∧
      (∀ (p q : Picture) (older : List Notice) (y : Notice), owed.head? = some p → owed.getLast? = some q →
        (s.stream n).notices = older ++ [y] → 4 ≤ (s.stream n).notices.length →
        x.notices = older ++
          [{ first := if (y.first - p.number).toNat < 2 ^ 31 then p.number else y.first
             last := if (q.number - y.last).toNat ≤ 2 ^ 31 then q.number else y.last
             isPartial := y.isPartial || begun }]))

/-! ## Commands of the lines and of the measurement -/

/-- LINE_START, LINE_HALT and LINE_CLEAR (R153-R155) by their cases in order, for each line: the refusals change
nothing but the completion; an accepted start is ACTIVE with its start pending, and offers STARTED; an accepted halt
is HALTING while a frame is in transmission, and HALTED at once, offering HALTED, without one; a clear is IDLE with
both frame buffers empty, the sequence 0, the coder reset and the list detached, and offers CLEARED. Until its first
frame a started line has the output it had before; a halted one has the hold signal, a cleared one no signal, or the
retransmission under REMOTE (R153-R156). Each event is in the queue as the line's LINE_FUNCTION record with its
outcome, as OfferedEventMakesOrJoinsARecord says, whatever parity faults the uplink decision finds besides (R126).
That a halt to HALTING makes no uplink decision (log 47), and that a clear drops the symbols that wait out the coder's
delay too (log 51), is the model's choice. -/
def Obligations.LineFunctionCommandsDecide : Prop :=
  ∀ (l : LineId) (s : State), (s.line l).stopped = false →
    let x := s.line l
    let pending := s.pairPending l.val (.lineFunction .started)
    let differs := ∃ g, x.staged = some g ∧ (g.rate ≠ x.applied.rate ∨ g.code ≠ x.applied.code)
    (s.command.handed = some (.lineStart l) →
      (x.applied.rate = .off → exec .lineStart s = .next (complete .notOperational 0 s)) ∧
      (x.applied.rate ≠ .off → (x.function = .active ∨ x.function = .halting ∨ differs) →
        exec .lineStart s = .next (complete .conflict 0 s)) ∧
      (x.applied.rate ≠ .off → (x.function = .idle ∨ x.function = .halted) → ¬ differs →
        (pending = true → exec .lineStart s = .next (complete .statusWaiting 0 s)) ∧
        (pending = false → ∃ t, exec .lineStart s = .next (complete .accepted 0 t) ∧
          ((s.isNormal = true → ∃ q ∈ t.report.queue, q.object = l.val ∧ q.detail = .lineFunction .started) ∧
            (s.ClipsGood → t.report = (offer l.val (.lineFunction .started) s).report)) ∧
          (t.line l).function = .active ∧ (t.line l).startPending = true ∧
          (t.line l).holdBefore = (x.function == .halted) ∧ (t.line l).output = x.output ∧
          (t.line l).sequence = x.sequence ∧ (t.line l).next = x.next ∧ (t.line l).tx = x.tx ∧
          (t.line l).applied = x.applied ∧ OtherLinesSame l s t ∧
          t.pairPending l.val (.lineFunction .started) = s.isNormal ∧
          ChangesOnly [.report, .label, .lines, .fault] s t))) ∧
    (s.command.handed = some (.lineHalt l) →
      (x.function ≠ .active → exec .lineHalt s = .next (complete .conflict 0 s)) ∧
      (x.function = .active → pending = true → exec .lineHalt s = .next (complete .statusWaiting 0 s)) ∧
      (x.function = .active → pending = false → x.tx ≠ none →
        exec .lineHalt s = .next (complete .accepted 0 (s.setLine l { x with function := .halting }))) ∧
      (x.function = .active → pending = false → x.tx = none →
        ∃ t, exec .lineHalt s = .next (complete .accepted 0 t) ∧
          ((s.isNormal = true → ∃ q ∈ t.report.queue, q.object = l.val ∧ q.detail = .lineFunction .halted) ∧
            (s.ClipsGood → t.report = (offer l.val (.lineFunction .halted) s).report)) ∧
          (t.line l).function = .halted ∧ (t.line l).startPending = false ∧ (t.line l).audioDue = false ∧
          (t.line l).output = (if x.applied.rate = .off then .noSignal
            else if x.applied.loopback = .remote then .retransmission else .hold) ∧
          (t.line l).sequence = x.sequence ∧ (t.line l).next = x.next ∧ (t.line l).list = x.list ∧
          OtherLinesSame l s t ∧ ChangesOnly [.report, .label, .lines, .fault] s t)) ∧
    (s.command.handed = some (.lineClear l) →
      ∃ t, exec .lineClear s = .next (complete .accepted 0 t) ∧
        ((s.isNormal = true → ∃ q ∈ t.report.queue, q.object = l.val ∧ q.detail = .lineFunction .cleared) ∧
          (s.ClipsGood → t.report = (offer l.val (.lineFunction .cleared) s).report)) ∧
        (t.line l).function = .idle ∧ (t.line l).tx = none ∧ (t.line l).next = none ∧
        (t.line l).output = (if x.applied.rate ≠ .off ∧ x.applied.loopback = .remote then .retransmission
          else .noSignal) ∧
        (t.line l).sequence = 0 ∧ (t.line l).coder = Coder.reset ∧ (t.line l).startPending = false ∧
        (t.line l).audioDue = false ∧ (t.line l).newPeriod = false ∧ (t.line l).labelSent = false ∧
        (t.line l).list.state = .none ∧ (t.line l).list.loaded = none ∧
        (t.line l).list.fetching = none ∧ (t.line l).list.ending = false ∧
        (t.line l).list.resumePending = false ∧ (∀ j ∈ (t.line l).jobs, j.discarded = true) ∧
        (t.line l).applied = x.applied ∧ (t.line l).staged = x.staged ∧
        (t.line l).receiver = x.receiver ∧ t.governor = s.governor ∧
        OtherLinesSame l s t ∧ ChangesOnly [.report, .label, .lines, .fault] s t)

/-- SEND_LIST and LINE_RESUME (R170, R172) by their cases in order, for each line: a wrong address completes
INVALID with result word 1, an attached list CONFLICT; else the list is RUNNING and the first descriptor is
fetched. A resume with no list attached completes CONFLICT; a HELD list is RUNNING and fetches its current
descriptor again; a RUNNING one has its resume pending. The clause that the reserved offset stays is the model's
choice (log 33), at SEND_LIST and at LINE_RESUME. -/
def Obligations.SendListAndResumeDecide : Prop :=
  ∀ (l : LineId) (s : State), (s.line l).stopped = false →
    let x := s.line l
    let fetch (a : Nat) : Made :=
      { purpose := .descriptorFetch l x.nextJob, fixed := some { addr := beatOf a, burst := .read 4 } }
    (∀ p : BitVec 64, s.command.handed = some (.sendList l p) →
      let list : SendList :=
        { state := .running, current := p.toNat, loaded := none, reserved := x.list.reserved,
          fetching := some x.nextJob, ending := false, resumePending := false, serial := x.list.serial + 1 }
      exec .sendList s = .next
        (if p.toNat % 32 ≠ 0 ∨ 2 ^ 36 ≤ p.toNat then complete .invalid 1 s
        else if x.list.state ≠ .none then complete .conflict 0 s
        else complete .accepted 0 (makeRequest (lineQueue l) (fetch p.toNat)
          (s.setLine l { x with list := list, nextJob := x.nextJob + 1 })))) ∧
    (s.command.handed = some (.lineResume l) →
      let list : SendList :=
        { x.list with state := .running, loaded := none, fetching := some x.nextJob }
      exec .lineResume s = .next
        (match x.list.state with
        | .none => complete .conflict 0 s
        | .held => complete .accepted 0 (makeRequest (lineQueue l) (fetch x.list.current)
            (s.setLine l { x with list := list, nextJob := x.nextJob + 1 }))
        | .running => complete .accepted 0
            (s.setLine l { x with list := { x.list with resumePending := true } })))

/-- MEASURE_START and MEASURE_STOP (R205, R206) by their cases in order, in NORMAL mode. -/
def Obligations.MeasureCommandsDecide : Prop :=
  ∀ s : State, s.isNormal = true →
    (∀ p : BitVec 64, s.command.handed = some (.measureStart p) →
      let length := p.toNat % 2 ^ 32
      exec .measureStart s = .next
        (if length < 100 ∨ 60000 < length then complete .invalid 1 s
        else if s.ownedWindow .meas = none then complete .notOperational 0 s
        else complete .accepted 0 { s with fault :=
          match s.fault.state with
          | .inactive => { s.fault with state := .starting, interval := length }
          | .starting => { s.fault with interval := length }
          | .active => { s.fault with stagedInterval := some length } })) ∧
    (s.command.handed = some .measureStop →
      exec .measureStop s = .next
        (if s.fault.state = .inactive then complete .conflict 0 s
        else complete .accepted 0
          { s with fault := { s.fault with state := .inactive, stagedInterval := none, frames := 0 } }))

/-! ## Posting -/

/-- REPORT_POST (R33, R34): in NORMAL mode, with room in the ring of an applied REPORT window, the head of the
queue moves into the empty post buffer, or the record of a cancelled post write is taken again, and its write
is presented at the write slot. LABEL_POST (R122): in NORMAL mode, with room in the ring of an applied LABEL
window, no label write in flight and no parity error held in a record, the first record of the close-order
list whose ring done flag is clear is presented at the write slot when it is released. The 32 bytes of a report record
and the 64 of a label record are those of section 11.3. That a record presented again after a cancellation has two
tries anew is the model's choice (log 21). -/
def Obligations.PostsArePresentedAtTheWriteSlot : Prop :=
  (∀ (s : State) (w : WindowEntry), s.isNormal = true → s.report.stopped = false →
    s.ownedWindow .report = some w → (s.report.written - s.report.consumed).toNat < 128 * w.size.toNat →
    let write (r : Record) : Made :=
      { purpose := .reportPost false
        fixed := some { addr := beatOf (w.first + 32 * s.report.slot), burst := fullWrite r.bytes } }
    (∀ r rest, s.report.post = none → s.report.queue = r :: rest →
      exec .reportPost s = .next (makeRequest reportQueue (write r)
        { s with report := { s.report with queue := rest, post := some { record := r, presented := true } } })) ∧
    (∀ p, s.report.post = some p → p.presented = false →
      exec .reportPost s = .next (makeRequest reportQueue (write p.record)
        { s with report := { s.report with post := some { record := p.record, presented := true } } }))) ∧
  (∀ (us : List Upset) (s₀ s : State) (w : WindowEntry) (before after : List (Fin 32)) (i : Fin 32) (c : Clip),
    s = strikes us s₀ → s.isNormal = true → s.label.stopped = false → s.ownedWindow .label = some w →
    s.label.inFlight = none → (s.label.written - s.label.consumed).toNat < 64 * w.size.toNat →
    (∀ (j : Fin 32) (d : Clip), s.label.clips[j] = some d → d.parityBad = false) →
    s.label.order = before ++ i :: after →
    (∀ j ∈ before, ∀ d k, s.label.clips[j] = some d → d.closing = some k → k.ringDone = true) →
    s.label.clips[i] = some c → (∃ k, c.closing = some k ∧ k.ringDone = false ∧ k.hold = 0) →
    exec (.labelPost us) s₀ = .next (makeRequest labelQueue
      { purpose := .labelWrite false
        fixed := some { addr := beatOf (w.first + 64 * s.label.slot), burst := fullWrite c.bytes } }
      { s with label := { s.label with inFlight := some (some i) } })) ∧
  (∀ r : Record,
    let bs := r.bytes
    bs.length = 32 ∧ Holds bs 1 1 r.object ∧ Holds bs 2 2 r.repeats ∧ ShowsTimecode bs 4 r.timecode ∧
    Holds bs 8 4 r.audioCount.toNat ∧
    match r.detail with
    | .lineFunction o => Holds bs 0 1 1 ∧
        Holds bs 12 1 (match o with | .started => 1 | .halted => 2 | .cleared => 3) ∧ Holds bs 13 19 0
    | .lineSignal los sync => Holds bs 0 1 2 ∧ Holds bs 12 1 (if los then 1 else 0) ∧
        Holds bs 13 1 (match sync with | .hunt => 0 | .locked => 1) ∧ Holds bs 14 18 0
    | .sendList o a => Holds bs 0 1 3 ∧ Holds bs 12 1 (match o with | .held => 1 | .done => 2 | .error => 3) ∧
        Holds bs 13 7 0 ∧ Holds bs 20 8 a ∧ Holds bs 28 4 0
    | .stream drops corrupt flushes n => Holds bs 0 1 4 ∧ Holds bs 12 4 drops ∧ Holds bs 16 4 corrupt ∧
        Holds bs 20 4 flushes ∧ Holds bs 24 4 n.toNat ∧ Holds bs 28 4 0
    | .audioUnderrun sources => Holds bs 0 1 5 ∧ Holds bs 12 8 sources.toNat ∧ Holds bs 20 12 0
    | .busSaturation buses n => Holds bs 0 1 6 ∧ Holds bs 12 2 buses.toNat ∧ Holds bs 14 2 0 ∧
        Holds bs 16 4 n ∧ Holds bs 20 12 0
    | .reference st => Holds bs 0 1 7 ∧
        Holds bs 12 1 (match st with | .absent => 0 | .locked => 1 | .freeRun => 2 | .holdoverExpired => 3) ∧
        Holds bs 13 19 0
    | .markOverwrite slots => Holds bs 0 1 8 ∧ Holds bs 12 1 slots.toNat ∧ Holds bs 13 19 0
    | .clipRefused cameras n => Holds bs 0 1 9 ∧ Holds bs 12 1 cameras.toNat ∧ Holds bs 13 3 0 ∧
        Holds bs 16 4 n ∧ Holds bs 20 12 0
    | .fault a n => Holds bs 0 1 10 ∧
        Holds bs 12 8 (match a with
          | .address b => b.toNat
          | .location u k => 2 ^ 63 + 256 * u.toNat + k.toNat) ∧
        Holds bs 20 4 n ∧ Holds bs 24 8 0
    | .measure n => Holds bs 0 1 11 ∧ Holds bs 12 4 n.toNat ∧ Holds bs 16 16 0) ∧
  (∀ c : Clip,
    let bs := c.bytes
    let flags := byteAt bs 3
    bs.length = 64 ∧ Holds bs 0 2 c.id.toNat ∧ Holds bs 2 1 c.camera.val ∧ flags < 128 ∧
    flags.testBit 0 = c.good ∧ flags.testBit 1 = c.unlocked ∧ flags.testBit 2 = c.peak.isSome ∧
    flags.testBit 3 = c.pictures.isSome ∧ flags.testBit 4 = c.splitFrom.isSome ∧
    flags.testBit 5 = c.closing.isSome ∧ flags.testBit 6 = c.overwritten ∧
    ShowsTimecode bs 4 c.inTimecode ∧ Holds bs 8 4 c.inVideo.toNat ∧ Holds bs 12 4 c.inAudio.toNat ∧
    (∀ k, c.closing = some k → ShowsTimecode bs 16 k.timecode ∧ Holds bs 20 4 k.videoCount.toNat ∧
      Holds bs 24 4 k.audioCount.toNat) ∧
    (c.closing = none → Holds bs 16 12 0) ∧
    Holds bs 28 4 c.recorded.toNat ∧ Holds bs 32 4 c.dropped.toNat ∧ Holds bs 36 4 (c.peak.getD 0) ∧
    (∀ first last, c.pictures = some (first, last) → Holds bs 40 4 first.toNat ∧ Holds bs 44 4 last.toNat ∧
      Holds bs 48 4 c.pictureDrops.toNat) ∧
    (c.pictures = none → Holds bs 40 12 0) ∧
    Holds bs 52 2 ((c.splitFrom.map (·.toNat)).getD 0) ∧ Holds bs 54 10 0)

/-- A write of the report unit, the mixer, the label unit or the fault unit returns (R34, R99, R122, R125, R210). OK
advances the count and the slot of the ring; a first ERROR presents the write once more; a second gives it up; a bus
output write is never presented again; the response of a write of an old window counts as a cancellation. A label
write whose record is gone moves the counts but sets no flag and is not presented again, and a record found with a
parity error at its return is dropped with an INTERNAL_PARITY fault (R126). With the last write of an interval end
completed a MEASURE event is offered; that it carries the number of the block last presented, also when that block was
lost, is the model's choice (log 40). Each ERROR makes a MEMORY_ERROR fault with the address of the write; that it comes
before the parity fault of the same return is the model's choice (log 46), and so is that ring done stays clear at the
return of an old window's write when another LABEL window has come meanwhile (log 52). -/
def Obligations.WritesReturn : Prop :=
  ∀ (r : Response) (k : Fin 32) (i : Issued) (s : State), Answers r k i s →
    let freed : State := { s with path := { s.path with pool := s.path.pool.set k none } }
    let answered : State := if r.ok then freed else faultedState 1 (failAt i.request.addr) freed
    (∀ again, i.purpose = .reportPost again → exec (.reportPostWriteReturn r) s = .next
      (if i.stale then { answered with report := { answered.report with
          post := s.report.post.map fun p => { p with presented := false } } }
      else if r.ok then { answered with report := { answered.report with
          post := none
          written := s.report.written + 1
          slot := if s.report.slot + 1 < s.reportRing then s.report.slot + 1 else 0 } }
      else if again then { answered with report := { answered.report with post := none } }
      else makeRequest reportQueue { purpose := .reportPost true, fixed := some i.request } answered)) ∧
    (∀ frame j, i.purpose = .busWrite frame j →
      let completed := s.mixer.busQueue.map fun e =>
        if e.frame = frame then { e with completed := e.completed + 1 } else e
      let queue := completed.filter fun e =>
        ! (decide (e.total ≤ e.presented) && decide (e.presented ≤ e.completed))
      exec (.busOutWriteReturn r) s = .next { answered with mixer := { s.mixer with busQueue := queue } }) ∧
    (∀ serial l again, i.purpose = .measWrite serial l again →
      let opened := s.fault.writes.map fun g =>
        if g.serial = serial then { g with opened := g.opened - 1 } else g
      let done := opened.filter fun g => g.opened = 0 ∧ g.begun = true
      exec (.measWriteReturn r) s = .next
        (if r.ok = false ∧ again = false then
          makeRequest faultQueue { purpose := .measWrite serial l true, fixed := some i.request } answered
        else
          let t := done.foldl (fun t g => offer 0 (.measure g.number) t) answered
          { t with fault := { t.fault with writes := opened.filter fun g => g.opened ≠ 0 } })) ∧
    (∀ again j c x, i.purpose = .labelWrite again → s.label.inFlight = some (some j) →
      s.label.clips[(j : Fin 32)] = some c → c.closing = some x →
      (r.ok = false → again = false → i.stale = false → exec (.labelWriteReturn r) s = .next
        (makeRequest labelQueue { purpose := .labelWrite true, fixed := some i.request } answered)) ∧
      (r.ok = true ∨ again = true → i.stale = false →
        ∃ t, exec (.labelWriteReturn r) s = .next t ∧ ChangesOnly [.path, .report, .label, .fault] s t ∧
          t.label.inFlight = none ∧
          (x.uplinkDone = true → t.label.clips[j] = none ∧ j ∉ t.label.order) ∧
          (∀ c', t.label.clips[j] = some c' → ∃ x', c'.closing = some x' ∧ x'.ringDone = true) ∧
          (c.parityBad = true → t.label.clips[j] = none ∧ j ∉ t.label.order) ∧
          ((∀ (m : Fin 32) (d : Clip), m ≠ j → s.label.clips[m] = some d → d.parityBad = false) →
            let found :=
              if c.parityBad then faultedState 7 (.location 2 (BitVec.ofNat 8 j.val)) answered else answered
            t.report = found.report ∧ t.fault = found.fault) ∧
          t.label.consumed = s.label.consumed ∧
          (r.ok = true → t.label.written = s.label.written + 1 ∧
            t.label.slot = if s.label.slot + 1 < s.labelRing then s.label.slot + 1 else 0) ∧
          (r.ok = false → t.label.written = s.label.written ∧ t.label.slot = s.label.slot)) ∧
      (i.stale = true → ∃ t, exec (.labelWriteReturn r) s = .next t ∧
        ChangesOnly [.path, .report, .label, .fault] s t ∧ t.label.inFlight = none ∧
        t.label.written = s.label.written ∧ t.label.slot = s.label.slot ∧
        ((s.ownedWindow .label).isSome = true → RingDoneKept s t) ∧
        (∀ before after : List (Fin 32), s.ownedWindow .label = none → s.label.order = before ++ j :: after →
          (∀ m ∈ before, ∀ d k, s.label.clips[m] = some d → d.closing = some k → k.ringDone = true) →
          x.hold = 0 → x.ringDone = false →
          (x.uplinkDone = true → t.label.clips[j] = none ∧ j ∉ t.label.order) ∧
          ∀ c', t.label.clips[j] = some c' → ∃ x', c'.closing = some x' ∧ x'.ringDone = true))) ∧
    (∀ again, i.purpose = .labelWrite again → s.label.inFlight = some none →
      ∃ t, exec (.labelWriteReturn r) s = .next t ∧ ChangesOnly [.path, .report, .label, .fault] s t ∧
        t.path = answered.path ∧ t.label.inFlight = none ∧ t.label.consumed = s.label.consumed ∧
        (r.ok = true → i.stale = false → t.label.written = s.label.written + 1 ∧
          t.label.slot = if s.label.slot + 1 < s.labelRing then s.label.slot + 1 else 0) ∧
        (r.ok = false ∨ i.stale = true →
          t.label.written = s.label.written ∧ t.label.slot = s.label.slot) ∧
        ((s.ownedWindow .label).isSome = true → RingDoneKept s t))

/-! ## The timing unit -/

/-- The reference state machine (R44-R48). A pulse at or above the acceptance threshold makes a boundary and
locks; one below it is counted as a glitch and does nothing else. The free-run timer, at P in a state other
than LOCKED, makes a boundary and in FREE_RUN counts toward HOLDOVER_EXPIRED; the loss timer, at the loss
threshold in LOCKED, makes a boundary and gives FREE_RUN. P is that of the reference and of the video rate, as the
table of R43 gives it. -/
def Obligations.ReferencesFollowPulsesAndTimers : Prop :=
  ∀ (ref : Ref) (s : State), s.timing.stopped = false →
    let x := s.timing.reference ref
    let p := match ref, s.timing.rate with
      | .audio, _ => 200000
      | .video, .r25 => 8000000
      | .video, .r30 => 6666667
      | .video, .r50 => 4000000
      | .video, .r60 => 3333333
      | .video, .r30df => 6673333
      | .video, .r60df => 3336667
    let limit := match ref with | .video => 250 | .audio => 10000
    (p / 2 ≤ x.elapsed → ∃ t, exec (.referencePulse ref) s = .next t ∧ BoundaryMade ref .locked .pulse s t ∧
      t.timing.reference ref = { state := .locked, elapsed := 0, freeRun := 0, glitches := x.glitches } ∧
      ReferenceReported ref
        (if x.state = .freeRun ∨ x.state = .holdoverExpired then some .locked else none) s t) ∧
    (x.elapsed < p / 2 →
      let counted : Reference := { x with glitches := min (x.glitches + 1) 65535 }
      exec (.referencePulse ref) s = .next { s with timing := match ref with
        | .video => { s.timing with video := counted }
        | .audio => { s.timing with audio := counted } }) ∧
    (x.state ≠ .locked → p ≤ x.elapsed → ∃ t st n, exec (.freeRunTimer ref) s = .next t ∧
      BoundaryMade ref st .timer s t ∧
      t.timing.reference ref = { state := st, elapsed := 0, freeRun := n, glitches := x.glitches } ∧
      (x.state = .freeRun → n = x.freeRun + 1 ∧ st = if limit ≤ n then .holdoverExpired else .freeRun) ∧
      (x.state ≠ .freeRun → n = x.freeRun ∧ st = x.state) ∧
      ReferenceReported ref
        (if x.state = .freeRun ∧ limit ≤ n then some .holdoverExpired else none) s t) ∧
    (x.state = .locked → p + p / 4 ≤ x.elapsed → ∃ t, exec (.lossTimer ref) s = .next t ∧
      BoundaryMade ref .freeRun .timer s t ∧
      t.timing.reference ref = { state := .freeRun, elapsed := 0, freeRun := 0, glitches := x.glitches } ∧
      ReferenceReported ref (some .freeRun) s t)

/-- MARK_EDGE (R58, R59): a sampled level that has differed from the filtered level for 200 core clocks
becomes the filtered level; where the edge matches the input's selection it fills the input's slot with the
audio frame counter, a FULL slot being marked overwritten and reported; where it does not, no slot changes.
A shorter one does nothing. -/
def Obligations.MarkEdgeFillsItsSlot : Prop :=
  ∀ (k : Fin 6) (high : Bool) (clocks : Nat) (s : State), s.timing.stopped = false →
    let edge : EdgeSelection := s.timing.selections[k]
    let matching : Bool := edge == .both || (edge == .rising && high) || (edge == .falling && !high)
    let slot : Fin 7 := k.castLE (by omega)
    let full := (s.timing.slots[slot]).isSome
    let seen : State := { s with timing := { s.timing with filtered := s.timing.filtered.set k high } }
    let capture : Capture := { audioCount := s.timing.audioCount, overwritten := full, mark := none }
    let filled : State :=
      { seen with timing := { seen.timing with slots := s.timing.slots.set slot (some capture) } }
    (s.timing.filtered[k] = high ∨ clocks < 200 → exec (.markEdge k high clocks) s = .next s) ∧
    (s.timing.filtered[k] ≠ high → 200 ≤ clocks → exec (.markEdge k high clocks) s = .next
      (if matching = true then
        if full = true then offer 0 (.markOverwrite (1#7 <<< k.val)) filled else filled
      else seen))

/-! ## Boundaries at the mixer, the label unit, the governor and the lines -/

/-- The mixer takes an audio boundary (R72, R76, R78, R80, R81, R90-R98): the held frame of every bus is the closing
frame's outputs under its number, zeros for a bus whose row is bad (R92), the meters follow the peaks, each source is
judged, its idle run by R72, the frame goes to the bus output queue when a window is applied and it holds fewer than
two, with its 32 writes still to be made, of which the first is presented at once and each holds the address and the
containers of R98, the lines that run and carry a bus have AUDIO due, NEXT becomes CURRENT, a staged route set is
applied, and the new NEXT is empty with every applied route's gains latched. An OPEN clip takes the peak of its
camera's label bus (R119). The events come in the order of the close steps, one INTERNAL_PARITY fault for each bad bus
(R92; from bus 0 up, the model's choice, log 38), BUS_SATURATION (R93), AUDIO_UNDERRUN (R73) and, with the queue full,
OUTPUT_LATE (R97), with no faults in PASS-ONLY mode (R203); where a clip record holds a parity error, faults of R126
may follow them. -/
def Obligations.MixerClosesAndOpensAtABoundary : Prop :=
  ∀ (us : List Upset) (s₀ s : State) (b : AudioBoundary) (rest : List AudioBoundary), s = strikes us s₀ →
    s.mixer.boundaries = b :: rest → s.mixer.stopped = false →
    let m := s.mixer
    let bad (bus : Fin 16) : Bool :=
      m.current.rowBad[bus] || (List.finRange 48).any fun j => (m.current.rows[bus][j]).parityBad
    let out (bus : Fin 16) : Vector Sample 48 := Vector.ofFn fun j =>
      if bad bus then 0 else (m.current.rows[bus][j]).output
    let peak (bus : Fin 16) : Nat := (out bus).toList.foldl (fun p x => max p x.toInt.natAbs) 0
    let saturated (bus : Fin 16) : Nat :=
      if bad bus then 0 else ((List.finRange 48).filter fun j => (m.current.rows[bus][j]).saturates).length
    let total := ((List.finRange 16).map saturated).sum
    (∀ (e : BusEntry) (w : WindowEntry) (k : Fin 32),
      let bus : Fin 16 := ⟨k.val / 2, by omega⟩
      let first := 32 * (k.val % 2)
      let container (j : Nat) : Nat := (((e.samples[bus].toList[j]?).getD 0).toInt % 2 ^ 32).toNat
      e.request w k =
        { addr := beatOf (w.first + 2048 * bus.val + 256 * (e.frame.toNat % 8) + 4 * first)
          burst := .write ((List.range (if k.val % 2 = 0 then 16 else 8)).map fun j =>
            { data := BitVec.ofNat 64 (container (first + 2 * j) + 2 ^ 32 * container (first + 2 * j + 1))
              enables := 0xFF }) }) ∧
    ∃ t, exec (.mixerAudioBoundary us) s₀ = .next t ∧
      ChangesOnly [.path, .report, .mixer, .label, .lines, .fault] s t ∧
      t.mixer.boundaries = rest ∧ t.mixer.frame = m.frame + 1 ∧ t.mixer.current = m.next ∧
      t.mixer.applied = m.staged.getD m.applied ∧ t.mixer.staged = none ∧ t.mixer.targets = m.targets ∧
      (∀ bus : Fin 16, t.mixer.held[bus] = { frame := m.frame, samples := out bus } ∧
        t.mixer.meters[bus] = max (peak bus) (m.meters[bus] - m.meters[bus] / 32)) ∧
      (∀ x : Fin 64, (t.mixer.sources[x]).active =
        ((m.sources[x]).active && (m.current.arrivals[x] != 0 || (m.sources[x]).idleRun < 7)) ∧
        (t.mixer.sources[x]).idleRun =
          (if m.current.arrivals[x] ≠ 0 then 0 else min ((m.sources[x]).idleRun + 1) 8) ∧
        (t.mixer.sources[x]).late = (m.sources[x]).late ∧
        (t.mixer.sources[x]).rewrites = (m.sources[x]).rewrites ∧
        (t.mixer.sources[x]).outOfWindow = (m.sources[x]).outOfWindow) ∧
      (∀ bus : Fin 16, ∀ j : Fin 48, t.mixer.next.rows[bus][j] = { value := 0, parityBad := false }) ∧
      (∀ x : Fin 64, t.mixer.next.arrivals[x] = 0) ∧
      t.mixer.next.routes = (m.staged.getD m.applied).map (fun q =>
        { record := q
          g0 := ((m.next.routes.find? fun p =>
            p.record.bus == q.bus && p.record.source == q.source).map (·.g1)).getD 0
          g1 := m.targets[q.index] }) ∧
      t.mixer.busQueue.map (·.frame) = m.busQueue.map (·.frame) ++
        (if (s.ownedWindow .busOut).isSome ∧ m.busQueue.length < 2 then [m.frame] else []) ∧
      (∀ w, s.ownedWindow .busOut = some w → m.busQueue.length < 2 →
        let placed : BusEntry :=
          { frame := m.frame, samples := Vector.ofFn out, total := 32, presented := 0, completed := 0 }
        (∃ e, t.mixer.busQueue.getLast? = some e ∧ { e with presented := 0 } = placed) ∧
        (s.isNormal = true → s.path.queues[mixerQueue] = { waiting := none, later := [] } →
          (∀ e ∈ m.busQueue, e.frame ≠ m.frame) →
          t.mixer.busQueue = m.busQueue ++ [{ placed with presented := 1 }] ∧
          t.path.queues[mixerQueue] =
            { waiting := some { purpose := .busWrite m.frame 0, request := placed.request w 0,
                                ahead := s.path.forward.length, stale := false }
              later := (List.finRange 32).tail.map fun k =>
                { purpose := .busWrite m.frame k, fixed := none } })) ∧
      (∀ l : LineId, t.line l = { s.line l with audioDue := (s.line l).audioDue ||
        ((s.line l).function == .active && !(s.line l).applied.buses.isEmpty && !(s.line l).stopped) }) ∧
      (s.label.stopped = true → t.label = s.label) ∧
      (s.label.stopped = false → s.ClipsGood → ∀ (i : Fin 32) (c : Clip), s.label.clips[i] = some c →
        c.closing = none → t.label.clips[i] = some { c with
          peak := c.peak.map fun p => max p (((s.label.applied.buses[c.camera]).map peak).getD 0) }) ∧
      (s.isNormal = false → t.fault = s.fault) ∧
      (s.ClipsGood → ∀ (buses : BitVec 16) (sources : BitVec 64),
        (∀ bus : Fin 16, buses.getLsbD bus.val = decide (saturated bus ≠ 0)) →
        (∀ x : Fin 64, sources.getLsbD x.val = ((m.sources[x]).active &&
          (m.current.routes.any fun q => q.record.source == x) &&
          (List.finRange 48).any fun j => !(m.current.arrivals[x]).getLsbD j.val)) →
        let faulted (k : Fin 8) (a : FailAddress) (u : State) : State :=
          if s.isNormal then faultedState k a u else u
        let parity := ((List.finRange 16).filter bad).foldl
          (fun u bus => faulted 7 (.location 1 (BitVec.ofNat 8 bus.val)) u) s
        let clipped := if total = 0 then parity else offer 0 (.busSaturation buses total) parity
        let starved := if sources = 0 then clipped else offer 0 (.audioUnderrun sources) clipped
        let late := match s.ownedWindow .busOut with
          | some w =>
            if m.busQueue.length < 2 then starved
            else faulted 5 (.address (BitVec.ofNat 36 (w.first + 256 * (m.frame.toNat % 8)))) starved
          | none => starved
        t.report = late.report ∧ t.fault.classes = late.fault.classes)

/-- The label unit takes a video boundary (R104, R107-R117, R121, R124, R126). Step 1: a record with a parity error is
FREE, with an INTERNAL_PARITY fault (in index order, and a CLOSED record with a hold of 0 too: the model's choice, log
39), every OPEN clip counts one frame, recorded or dropped, and every CLOSED record's hold above 0 goes down; what
that releases is posted. Step 2: an OPEN clip is unlocked by a boundary that is not LOCKED. Step 3: a staged LABELS
group is applied and its edge selections are the timing unit's. Step 4: the FULL slots become EMPTY and their marks
are applied in slot order, slots 0 to 5 by the applied settings, slot 6 by what it holds. Then the period values are
the boundary's. Once the timing unit has stopped, it keeps its slots and selections (R62; log 11). An IN mark on a
camera with no OPEN clip opens the FREE record of lowest index, or is refused and reported, and on one with an OPEN
clip is a SPLIT; an OUT mark closes the OPEN clip at the tail of the close-order list, or is stray; a TOGGLE is the
one or the other; a SPLIT closes and opens; a GOOD mark sets the good flag of the OPEN clip, or of the camera's last
CLOSED record while it is held, or is stray. The released uplink head is copied to the uplink queue, waits for a
place, or is done without a copy, and the next is decided (R124); with no LABEL window the released ring head has ring
done set at once, unless its write is in flight, and the next is decided (R122), before the uplink is; a record is FREE
when it has both flags (R121); a head with a parity error is dropped, and it is read before its hold is looked at (the
model's choice, log 39, as is the order of the two). -/
def Obligations.LabelUnitCountsAndTakesMarks : Prop :=
  (∀ (us : List Upset) (s₀ s : State) (b : VideoBoundary) (rest : List VideoBoundary), s = strikes us s₀ →
    s.label.boundaries = b :: rest → s.label.stopped = false →
    let x := s.label
    let g := x.staged.getD x.applied
    let isBad (i : Fin 32) : Bool := (x.clips[i]).any fun c => c.parityBad
    let counted (c : Clip) : Clip :=
      match c.closing with
      | some k => { c with closing := some { k with hold := k.hold - 1 } }
      | none =>
        if (x.cameras[c.camera]).completed then { c with recorded := c.recorded + 1 }
        else { c with dropped := c.dropped + 1 }
    let stepOne : State := { s with label := { x with
      boundaries := rest
      clips := Vector.ofFn fun i => if isBad i then none else (x.clips[i]).map counted
      order := x.order.filter fun i => !isBad i
      cameras := Vector.ofFn fun k => { x.cameras[k] with completed := false }
      inFlight := x.inFlight.map fun i => i.bind fun i => if isBad i then none else some i } }
    let faulted : State :=
      if s.isNormal then ((List.finRange 32).filter isBad).foldl
        (fun u i => faultedState 7 (.location 2 (BitVec.ofNat 8 i.val)) u) stepOne
      else stepOne
    let posted := postSettle faulted
    let stepTwo : State := { posted with label := { posted.label with
      clips := Vector.ofFn fun i => (posted.label.clips[i]).map fun c =>
        { c with unlocked := c.unlocked || (c.closing.isNone && b.state != .locked) } } }
    let stepThree : State := { stepTwo with
      label := { stepTwo.label with applied := g, staged := none }
      timing := if s.timing.stopped then s.timing else { s.timing with
        slots := Vector.replicate 7 none
        selections := match x.staged with
          | some y => Vector.ofFn fun i => (y.inputs[i]).edge
          | none => s.timing.selections } }
    let marks : List (MarkFunction × Fin 8 × Capture) := (List.finRange 7).filterMap fun i =>
      (s.timing.slots[i]).bind fun c =>
        if h : i.val < 6 then
          let input := g.inputs[(⟨i.val, h⟩ : Fin 6)]
          some (input.function, input.camera, c)
        else c.mark.map fun y => (y.1, y.2, c)
    let marked :=
      if s.timing.stopped then stepThree
      else marks.foldl (fun u y => applyMark y.1 y.2.1 y.2.2 b u) stepThree
    ∃ t, exec (.labelVideoBoundary us) s₀ = .next t ∧
      t = postSettle { marked with
        label := { marked.label with periodTimecode := b.timecode, periodVideo := b.count } } ∧
      ChangesOnly [.report, .timing, .label, .fault] s t ∧
      t.label.boundaries = rest ∧ t.label.periodTimecode = b.timecode ∧ t.label.periodVideo = b.count ∧
      t.label.applied = g ∧ t.label.staged = none ∧
      (s.timing.stopped = true → t.timing = s.timing) ∧
      (s.timing.stopped = false →
        (∀ i : Fin 7, t.timing.slots[i] = none) ∧
        (∀ i : Fin 6, t.timing.selections[i] = match s.label.staged with
          | some y => (y.inputs[i]).edge
          | none => s.timing.selections[i])) ∧
      (∀ k : Fin 8, t.label.cameras[k] = { s.label.cameras[k] with completed := false }) ∧
      (s.ClipsGood → (∀ i : Fin 7, s.timing.slots[i] = none) →
        ∀ (i : Fin 32) (c : Clip), s.label.clips[i] = some c → c.closing = none →
          t.label.clips[i] = some { c with
            recorded := if (s.label.cameras[c.camera]).completed then c.recorded + 1 else c.recorded
            dropped := if (s.label.cameras[c.camera]).completed then c.dropped else c.dropped + 1
            unlocked := c.unlocked || b.state != .locked })) ∧
  (∀ (camera : Fin 8) (m : Capture) (b : VideoBoundary) (s : State),
    let opened (i : Fin 32) (split : Option Count16) (u : State) : State := { u with label := { u.label with
      nextId := if u.label.nextId = 65535 then 1 else u.label.nextId + 1
      clips := u.label.clips.set i (some
        { id := u.label.nextId, camera := camera, inTimecode := b.timecode, inVideo := b.count,
          inAudio := m.audioCount, closing := none, recorded := 0, dropped := 0, good := false,
          unlocked := b.state != .locked, overwritten := m.overwritten,
          peak := (u.label.applied.buses[camera]).map (fun _ => 0), pictures := none, pictureDrops := 0,
          splitFrom := split, parityBad := false }) } }
    let refused (u : State) : State := offer 0 (.clipRefused (1#8 <<< camera.val) 1) u
    let stray : State := { s with label := { s.label with stray := s.label.stray + 1 } }
    let lowestFree (i : Fin 32) (u : State) : Prop :=
      u.label.clips[i] = none ∧ ∀ j : Fin 32, j < i → u.label.clips[j] ≠ none
    let noneFree (u : State) : Prop := ∀ j : Fin 32, u.label.clips[j] ≠ none
    applyMark .none camera m b s = s ∧
    (s.label.openOf camera = none →
      (∀ i : Fin 32, lowestFree i s → applyMark .markIn camera m b s = opened i none s) ∧
      (noneFree s → applyMark .markIn camera m b s = refused s) ∧
      applyMark .split camera m b s = applyMark .markIn camera m b s ∧
      applyMark .toggle camera m b s = applyMark .markIn camera m b s ∧
      applyMark .markOut camera m b s = stray ∧
      (∀ (i : Fin 32) (c : Clip), s.label.clips[i] = some c → c.camera = camera →
        (∃ before after, s.label.order = before ++ i :: after ∧
          ∀ j ∈ after, ∀ d, s.label.clips[j] = some d → d.camera ≠ camera) →
        applyMark .good camera m b s =
          if ∃ k, c.closing = some k ∧ 0 < k.hold then
            { s with label := { s.label with clips := s.label.clips.set i (some { c with good := true }) } }
          else stray) ∧
      ((∀ i ∈ s.label.order, ∀ d, s.label.clips[i] = some d → d.camera ≠ camera) →
        applyMark .good camera m b s = stray)) ∧
    (∀ (i : Fin 32) (c : Clip), s.label.openOf camera = some i → s.label.clips[i] = some c →
      let closing : Closing :=
        { timecode := s.label.periodTimecode, videoCount := s.label.periodVideo, audioCount := m.audioCount,
          hold := s.label.applied.goodHold, ringDone := false, uplinkDone := false }
      let shut : Clip := { c with overwritten := c.overwritten || m.overwritten, closing := some closing }
      let closed : State := { s with label := { s.label with
        order := s.label.order ++ [i], clips := s.label.clips.set i (some shut) } }
      applyMark .markOut camera m b s = closed ∧
      applyMark .toggle camera m b s = closed ∧
      applyMark .markIn camera m b s = applyMark .split camera m b s ∧
      (∀ j : Fin 32, lowestFree j closed → applyMark .split camera m b s = opened j (some c.id) closed) ∧
      (noneFree closed → applyMark .split camera m b s = refused closed) ∧
      applyMark .good camera m b s =
        { s with label := { s.label with clips := s.label.clips.set i (some { c with good := true }) } })) ∧
  (∀ s : State, s.label.stopped = false →
    ((∀ i ∈ s.label.order, ∀ c k, s.label.clips[i] = some c → c.closing = some k → k.uplinkDone = true) →
      uplinkSettle s = s) ∧
    (∀ (before after : List (Fin 32)) (i : Fin 32) (c : Clip) (k : Closing),
      s.label.order = before ++ i :: after → s.label.clips[i] = some c → c.closing = some k →
      k.uplinkDone = false →
      (∀ j ∈ before, ∀ d y, s.label.clips[j] = some d → d.closing = some y → y.uplinkDone = true) →
      let carried := ∃ l : LineId, (s.line l).applied.carriesLabels = true ∧ (s.line l).function ≠ .idle
      let removed (x : Label) : Label :=
        { x with clips := x.clips.set i none, order := x.order.filter fun j => j != i }
      let settled (x : Label) : Label :=
        if k.ringDone then removed x
        else { x with clips := x.clips.set i (some { c with closing := some { k with uplinkDone := true } }) }
      let dropped : State := { s with label := { removed s.label with
        inFlight := if s.label.inFlight = some (some i) then some none else s.label.inFlight } }
      (c.parityBad = true → uplinkSettle s = uplinkSettle
        (if s.isNormal then faultedState 7 (.location 2 (BitVec.ofNat 8 i.val)) dropped else dropped)) ∧
      (c.parityBad = false → k.hold ≠ 0 → uplinkSettle s = s) ∧
      (c.parityBad = false → k.hold = 0 → ¬ carried →
        uplinkSettle s = uplinkSettle { s with label := settled s.label }) ∧
      (c.parityBad = false → k.hold = 0 → carried → s.label.uplink.length < 8 →
        uplinkSettle s = uplinkSettle
          { s with label := settled { s.label with uplink := s.label.uplink ++ [c.bytes] } }) ∧
      (c.parityBad = false → k.hold = 0 → carried → 8 ≤ s.label.uplink.length → uplinkSettle s = s))) ∧
  (∀ s : State, postSettle s = uplinkSettle (ringSettle s)) ∧
  (∀ s : State, s.label.stopped = true ∨ (s.ownedWindow .label).isSome = true → ringSettle s = s) ∧
  (∀ s : State, s.label.stopped = false → s.ownedWindow .label = none →
    ((∀ i ∈ s.label.order, ∀ c k, s.label.clips[i] = some c → c.closing = some k → k.ringDone = true) →
      ringSettle s = s) ∧
    (∀ (before after : List (Fin 32)) (i : Fin 32) (c : Clip) (k : Closing),
      s.label.order = before ++ i :: after → s.label.clips[i] = some c → c.closing = some k →
      k.ringDone = false →
      (∀ j ∈ before, ∀ d y, s.label.clips[j] = some d → d.closing = some y → y.ringDone = true) →
      let removed (x : Label) : Label :=
        { x with clips := x.clips.set i none, order := x.order.filter fun j => j != i }
      let settled (x : Label) : Label :=
        if k.uplinkDone then removed x
        else { x with clips := x.clips.set i (some { c with closing := some { k with ringDone := true } }) }
      let dropped : State := { s with label := { removed s.label with
        inFlight := if s.label.inFlight = some (some i) then some none else s.label.inFlight } }
      (c.parityBad = true → ringSettle s = ringSettle
        (if s.isNormal then faultedState 7 (.location 2 (BitVec.ofNat 8 i.val)) dropped else dropped)) ∧
      (c.parityBad = false → k.hold ≠ 0 ∨ s.label.inFlight = some (some i) → ringSettle s = s) ∧
      (c.parityBad = false → k.hold = 0 → s.label.inFlight ≠ some (some i) →
        ringSettle s = ringSettle { s with label := settled s.label })))

/-- The governor takes a video boundary (R140, R141, R144, R145). For each stream: a staged group that the
fill allows is applied, H becoming its base hint, or the settings are gone, H staying; otherwise H moves
toward Hb + floor(64 × (F − T) / C), limited to 0-63, by at most S, and a staged group is held. The fill, the
picture queue, the notices, the claim and the key request stay as they were. -/
def Obligations.GovernorStepsHintsAtABoundary : Prop :=
  ∀ (b : VideoBoundary) (rest : List VideoBoundary) (s : State), s.governor.boundaries = b :: rest →
    s.governor.stopped = false →
    ∃ t, exec .governorVideoBoundary s = .next t ∧ ChangesOnly [.governor] s t ∧
      t.governor.boundaries = rest ∧ ∀ n : Fin 4,
      let x := s.stream n
      let y := t.stream n
      y = { x with applied := y.applied, staged := y.staged, hint := y.hint } ∧
      (∀ g, x.staged = some (some g) → x.fill ≤ g.capacity →
        y.applied = some g ∧ y.staged = none ∧ y.hint = g.base) ∧
      (x.staged = some none → x.fill = 0 → y.applied = none ∧ y.staged = none ∧ y.hint = x.hint) ∧
      (x.staged = none ∨ (x.staged = some none ∧ x.fill ≠ 0) ∨
          (∃ g, x.staged = some (some g) ∧ g.capacity < x.fill) →
        y.applied = x.applied ∧ y.staged = x.staged ∧
        (x.applied = none → y.hint = x.hint) ∧
        ∀ g, x.applied = some g →
          let raw : Int := g.base + (64 * ((x.fill : Int) - g.target)).fdiv g.capacity
          let target : Int := max 0 (min 63 raw)
          (y.hint : Int) = max 0 (x.hint + max (-(g.step : Int)) (min (g.step : Int) (target - x.hint))))

/-- A line takes an audio boundary (R152, R158, R159): its staged settings are applied, the period flags are
set, and exactly when it is ACTIVE, not under REMOTE, with a rate class, and has no frame in transmission, a
frame start is made by R160 and R161, as `FrameStarted` says, with the audio frame counter that this boundary has
left (R50) and the settings then applied: the frame takes the sequence, which advances, and the start is no longer
pending. Otherwise the frame in transmission, the next-frame buffer and the sequence stay. That a list keeps its
reserved offset and current address at a detach and while a descriptor is fetched (log 33), and that each read of a
piece is the longest that its bounds allow (log 54), is the model's choice. -/
def Obligations.LineTakesAnAudioBoundary : Prop :=
  ∀ (l : LineId) (b : AudioBoundary) (rest : List AudioBoundary) (s : State),
    (s.line l).boundaries = b :: rest → (s.line l).stopped = false →
    let x := s.line l
    let g := x.staged.getD x.applied
    let starts := x.function = .active ∧ g.loopback ≠ .remote ∧ g.rate ≠ .off ∧ x.tx = none
    ∃ t, exec (.lineAudioBoundary l) s = .next t ∧
      ChangesOnly [.path, .report, .mixer, .label, .governor, .lines, .fault] s t ∧ OtherLinesSame l s t ∧
      (t.line l).boundaries = rest ∧ (t.line l).applied = g ∧ (t.line l).staged = none ∧
      (t.line l).periodUnlocked = (b.state != .locked) ∧ (t.line l).function = x.function ∧
      (g.rate = .off → x.applied.rate ≠ .off →
        (t.line l).receiver.los = true ∧ (t.line l).receiver.sync = .hunt) ∧
      (starts → (t.line l).startPending = false ∧ (t.line l).newPeriod = false ∧
        (t.line l).sequence = x.sequence + 1 ∧
        (∃ f, (t.line l).tx = some f ∧ f.sent = 0 ∧ ofBE (slice f.bytes 4 2) = x.sequence.toNat) ∧
        ∃ u : State, (x.staged = none → u = s) ∧ u.governor = s.governor ∧ u.path = s.path ∧
          u.timing = s.timing ∧ u.mixer.held = s.mixer.held ∧ u.fault.totals = s.fault.totals ∧
          (x.staged ≠ none →
            let told := if g.carriesLabels = x.applied.carriesLabels then s
              else postSettle (s.setLine l { x with applied := g })
            u.label = told.label ∧ u.report = told.report ∧ u.fault = told.fault) ∧
          FrameStarted l { x with applied := g, labelSent := false, periodUnlocked := b.state != .locked }
            b.count u t) ∧
      (¬ starts → (t.line l).startPending = x.startPending ∧ (t.line l).newPeriod = true ∧
        (t.line l).labelSent = false ∧ (t.line l).sequence = x.sequence ∧ (t.line l).tx = x.tx ∧
        (t.line l).next = x.next)

/-- The 4,224 bits of a frame have been sent (R158, R160-R166, R168, R173, R178, R179). On an ACTIVE line that is
not under REMOTE the next frame starts, as `FrameStarted` says: AUDIO when it is due and a bus is carried, else the
ready frame of the next-frame buffer, else FILL, an underrun slot when that frame's reads are out; it takes the
sequence, which advances, it is offered to the measurement, and with the next-frame buffer left empty the first
kind whose condition holds is decided. A HALTING line becomes HALTED and an ACTIVE line under REMOTE sends no frame
of its own. The last FILE frame of a list that is ending detaches it and offers DONE, whatever the function state.
The reads of a piece are of 1 to 16 beats, none crossing a 4 KiB page, and take the beats of its bytes in order. That
a frame has been sent once the coder has taken its 4,224 bits is the model's choice (log 18), and so is that a list
keeps its reserved offset and current address at a detach and while a descriptor is fetched (log 33) and that a DONE
is offered before a HALTED at the same frame end (log 49). That each read of a piece is the longest that its bounds
allow is the model's choice too (log 54). -/
def Obligations.FrameEndStartsTheNextFrame : Prop :=
  (∀ (l : LineId) (f : TxFrame) (s : State), (s.line l).tx = some f → 4224 ≤ f.sent →
    (s.line l).stopped = false →
    let x := s.line l
    let done := f.kind = .file ∧ f.last = true ∧ x.list.ending = true
    let detached : SendList := { x.list with
      state := .none, loaded := none, ending := false, resumePending := false, fetching := none }
    let list := if done then detached else x.list
    let ended : State := if done then offer l.val (.sendList .done 0) s else s
    ∃ t, exec (.frameEnd l) s = .next t ∧
      ChangesOnly [.path, .report, .mixer, .label, .governor, .lines, .fault] s t ∧ OtherLinesSame l s t ∧
      (done → (t.line l).list = detached) ∧
      (x.function = .active → x.applied.loopback = .remote →
        (t.line l).tx = none ∧ (t.line l).next = x.next ∧ (t.line l).sequence = x.sequence ∧
        (t.line l).list = list ∧ t.report = ended.report) ∧
      (x.function = .halting →
        (t.line l).function = .halted ∧ (t.line l).tx = none ∧ (t.line l).next = x.next ∧
        (t.line l).sequence = x.sequence ∧ (t.line l).startPending = false ∧ (t.line l).audioDue = false ∧
        (t.line l).list = list ∧
        (s.ClipsGood → t.report = (offer l.val (.lineFunction .halted) ended).report)) ∧
      (x.function = .active → x.applied.loopback ≠ .remote →
        FrameStarted l { x with list := list } s.timing.audioCount ended t)) ∧
  (∀ byte length : Nat, byte + length ≤ 2 ^ 36 →
    let first := byte / 8
    let count := (byte + length + 7) / 8 - first
    (∀ q ∈ coverReads byte length, ∃ n, q.burst = .read n ∧ 1 ≤ n ∧ n ≤ 16 ∧
      q.addr.toNat % 512 + n ≤ 512 ∧
      (n = 16 ∨ (q.addr.toNat + n) % 512 = 0 ∨ q.addr.toNat + n = first + count)) ∧
    (coverReads byte length).flatMap (fun q => (List.range q.burst.beats).map fun j => q.addr.toNat + j) =
      (List.range count).map fun j => first + j)

/-! ## Reads of the lines -/

/-- A LIVE or FILE read returns (R134, R136, R165, R166, R174). Before the last read of a LIVE piece only its job
is noted. With the last one the claim ends: when every read was OK and the claim is not void, its length is
drained from the fill and from the head picture, which leaves at 0, and the waiting frame is ready with the
piece's bytes; otherwise nothing is drained and the frame has failed. With the claim gone the CORRUPT pictures at
the head leave. A FILE read that is the last and OK makes its frame ready; an ERROR fails the frame, and ends the
list it was reserved from, when that is still attached, with ERROR at the read's address. That the frame has failed
when the governor has stopped and takes no claim ending is the model's choice (log 48). -/
def Obligations.PieceReadsSettleTheirFrame : Prop :=
  ∀ (r : Response) (k : Fin 32) (i : Issued) (l : LineId) (id index : Nat) (j : ReadJob) (s : State),
    Answers r k i s → (s.line l).stopped = false → (s.line l).jobs.filter (fun y => y.id == id) = [j] →
    let x := s.line l
    let freed : State := { s with path := { s.path with pool := s.path.pool.set k none } }
    let answered : State := if r.ok then freed else faultedState 1 (failAt i.request.addr) freed
    let j' : ReadJob := { j with returned := j.returned ++ [(index, r.data)], failed := j.failed || !r.ok }
    let all := (List.range j.total).flatMap fun h =>
      bytesOfWords (((j'.returned.find? fun y => y.1 == h).map (·.2)).getD [])
    let piece := (all.drop j.lead).take j.length
    let stands := j'.failed = false ∧ j.discarded = false
    let jobs :=
      if j.total ≤ j'.returned.length then x.jobs.filter fun y => y.id != id
      else x.jobs.map fun y => if y.id = id then j' else y
    let settled (p : Payload) : Option Decided :=
      x.next.map fun d => if d.payload = .waiting id then { d with payload := p } else d
    let corruptLeave (ps : List Picture) : List Picture := ps.dropWhile fun p => p.state == .corrupt
    let drained (length : Nat) (ps : List Picture) : List Picture :=
      match ps with
      | [] => []
      | p :: rest => if p.unsent ≤ length then rest else { p with unsent := p.unsent - length } :: rest
    (∀ n, i.purpose = .payloadRead l id index → j.stream = some n →
      (j'.returned.length < j.total → exec (.payloadReadReturn r) s =
        .next (answered.setLine l { x with jobs := jobs })) ∧
      (j.total ≤ j'.returned.length →
        (∀ c, s.governor.stopped = false → (s.stream n).claim = some c → c.isVoid = false → stands →
          exec (.payloadReadReturn r) s = .next ((answered.setStream n { s.stream n with
            claim := none
            fill := (s.stream n).fill - c.length
            pictures := corruptLeave (drained c.length (s.stream n).pictures) }).setLine l
              { x with jobs := jobs, next := settled (.ready piece) })) ∧
        (∀ c, s.governor.stopped = false → (s.stream n).claim = some c → (c.isVoid = true ∨ ¬ stands) →
          exec (.payloadReadReturn r) s = .next ((answered.setStream n { s.stream n with
            claim := none
            pictures := corruptLeave (s.stream n).pictures }).setLine l
              { x with jobs := jobs, next := settled .failed })) ∧
        (s.governor.stopped = true ∨ (s.stream n).claim = none →
          exec (.payloadReadReturn r) s = .next (answered.setLine l
            { x with jobs := jobs, next := settled .failed })))) ∧
    (i.purpose = .fileRead l id index →
      ∃ t, exec (.fileReadReturn r) s = .next t ∧ ChangesOnly [.path, .report, .lines, .fault] s t ∧
        OtherLinesSame l s t ∧ (t.line l).jobs = jobs ∧
        (∀ d, x.next = some d → d.payload = .waiting id →
          (r.ok = true → j.failed = false → j.total ≤ j'.returned.length →
            (t.line l).next = some { d with payload := .ready piece }) ∧
          (r.ok = true → j.total > j'.returned.length → (t.line l).next = some d) ∧
          (r.ok = false → (t.line l).next = some { d with payload := .failed })) ∧
        (r.ok = false → x.list.state ≠ .none → x.list.serial = j.serial → j.discarded = false →
          (t.line l).list.state = .none ∧ t.report.queue = takeEvent
            { object := l.val, repeats := 1, timecode := s.timing.timecode,
              audioCount := s.timing.audioCount,
              detail := .sendList .error (8 * i.request.addr.toNat) } answered.report.queue) ∧
        (r.ok = true ∨ x.list.state = .none ∨ x.list.serial ≠ j.serial ∨ j.discarded = true →
          (t.line l).list = x.list))

/-- A descriptor fetch that is still awaited returns (R171) and is judged in R171's order: ERROR ends the
list; HOLD with a resume pending fetches again; HOLD without one gives HELD; a wrong length or end ends the
list with ERROR; else the descriptor is loaded, each field from its place in section 11.4, with nothing reserved. One
no longer awaited is dropped. The data address is the low 36 bits of its field, the other bits ignored (R169), and the
next address is its whole field (log 20). That a detached or a HELD list keeps its
reserved offset and its current address is the model's choice (log 33). -/
def Obligations.DescriptorIsJudged : Prop :=
  ∀ (r : Response) (k : Fin 32) (i : Issued) (l : LineId) (fetch : Nat) (s : State), Answers r k i s →
    i.purpose = .descriptorFetch l fetch → (s.line l).stopped = false →
    let x := s.line l
    let freed : State := { s with path := { s.path with pool := s.path.pool.set k none } }
    let bs := bytesOfWords r.data
    let hold := byteAt bs 12 % 2 = 1
    let descriptor : Descriptor :=
      { address := field bs 0 8 % 2 ^ 36
        length := field bs 8 4
        hold := false
        last := byteAt bs 12 / 2 % 2 == 1
        chain := byteAt bs 12 / 4 % 2 == 1
        tag := BitVec.ofNat 16 (field bs 14 2)
        next := field bs 16 8 }
    let wrong := field bs 8 4 = 0 ∨ 16777216 < field bs 8 4 ∨ 2 ^ 36 < field bs 0 8 % 2 ^ 36 + field bs 8 4
    let idle : SendList := { x.list with fetching := none }
    let detached : SendList :=
      { idle with state := .none, loaded := none, ending := false, resumePending := false }
    let ended (t : State) : State :=
      (offer l.val (.sendList .error x.list.current) (t.setLine l { x with list := idle })).setLine l
        { x with list := detached }
    (x.list.fetching ≠ some fetch → exec (.descriptorFetchReturn r) s = .next
      (if r.ok then freed else faultedState 1 (failAt i.request.addr) freed)) ∧
    (x.list.fetching = some fetch →
      (r.ok = false → exec (.descriptorFetchReturn r) s =
        .next (ended (faultedState 1 (failAt i.request.addr) freed))) ∧
      (r.ok = true → hold → x.list.resumePending = true → exec (.descriptorFetchReturn r) s =
        .next (makeRequest (lineQueue l)
          { purpose := .descriptorFetch l x.nextJob,
            fixed := some { addr := beatOf x.list.current, burst := .read 4 } }
          (freed.setLine l { x with nextJob := x.nextJob + 1, list :=
            { idle with resumePending := false, loaded := none, fetching := some x.nextJob } }))) ∧
      (r.ok = true → hold → x.list.resumePending = false → exec (.descriptorFetchReturn r) s =
        .next (offer l.val (.sendList .held x.list.current)
          (freed.setLine l { x with list := { idle with state := .held } }))) ∧
      (r.ok = true → ¬ hold → wrong → exec (.descriptorFetchReturn r) s = .next (ended freed)) ∧
      (r.ok = true → ¬ hold → ¬ wrong → exec (.descriptorFetchReturn r) s =
        .next (freed.setLine l { x with list :=
          { idle with loaded := some descriptor, reserved := 0 } })))

/-! ## The receivers and the line code -/

/-- LOS and CODE_VIOLATION (R84, R186, R187, R193, R208). A declaration that is due puts the receiver in HUNT
with LOS declared, the mixer's two sources of the line are IDLE, the measurement has the new state and one
LINE_SIGNAL event is offered; LOS already declared is not declared again. A violation is one violation of
the line while the measurement is ACTIVE. -/
def Obligations.LosAndViolationsAreTaken : Prop :=
  ∀ (l : LineId) (s : State), (s.line l).stopped = false →
    let x := s.line l
    (x.receiver.losDue = true → x.receiver.los = false →
      ∃ t, exec (.los l) s = .next t ∧ ChangesOnly [.report, .mixer, .lines, .fault] s t ∧
        OtherLinesSame l s t ∧ (t.line l).receiver.los = true ∧ (t.line l).receiver.sync = .hunt ∧
        (t.line l).receiver.heldGood = false ∧ (t.line l).receiver.inFrame = false ∧
        (t.line l).receiver.losDue = false ∧
        (s.isNormal = true → t.fault = { s.fault with los := s.fault.los.set l true } ∧
          t.report.queue = takeEvent
            { object := l.val, repeats := 1, timecode := s.timing.timecode,
              audioCount := s.timing.audioCount, detail := .lineSignal true .hunt } s.report.queue) ∧
        (s.mixer.stopped = false → ∀ c : Fin 2, ∀ y : Fin 64, y.val = 58 + 2 * l.val + c.val →
          (t.mixer.sources[y]).active = false ∧ (t.mixer.sources[y]).idleRun = 8)) ∧
    (x.receiver.losDue = true → x.receiver.los = true → exec (.los l) s =
      .next (s.setLine l { x with receiver := { x.receiver with losDue := false } })) ∧
    (0 < x.receiver.violationsDue → s.isNormal = true →
      let taken := s.setLine l
        { x with receiver := { x.receiver with violationsDue := x.receiver.violationsDue - 1 } }
      let total : Totals :=
        { s.fault.totals[l] with violations := (s.fault.totals[l]).violations + 1 }
      exec (.codeViolation l) s = .next
        (if s.fault.state = .active then
          { taken with fault := { s.fault with totals := s.fault.totals.set l total } }
        else taken))

/-- CANDIDATE_FRAME and LOCKED_FRAME (R82, R188-R193, R208). In HUNT a good candidate sets the held-good flag and
clears LOS, a second one brings LOCKED and is delivered, a bad one resumes the search one bit on: the receiver
takes the first place in the bits after the first that matches the sync word, or keeps the last 15. In LOCKED a
good frame is delivered and clears the bad count; the fourth bad frame in a row brings HUNT and the same search.
A delivered RETURN frame gives the mixer its 96 samples in NEXT, or counts 48 rewrites for a source that already
has one there; a KEYREQ frame sets the key request of the line's live stream; any other is ignored and counted.
Good frames and bad ones in LOCKED are offered to the measurement, and a change of LOS or sync makes one
LINE_SIGNAL event. -/
def Obligations.FramesAreJudged : Prop :=
  ∀ (l : LineId) (us : List Upset) (s₀ s : State), s = strikes us s₀ → (s.line l).stopped = false →
    (s.line l).receiver.inFrame = true → 4224 ≤ (s.line l).receiver.bits.length →
    let x := s.line l
    let r := x.receiver
    let frame := bytesOfBits (r.bits.take 4224)
    let good := goodFrame frame = true
    let sync := [true, false, true, true, false, true, false, true,
      false, false, true, false, true, true, true, false]
    let tail := r.bits.drop 1
    let totals (f : Totals → Totals) (u : State) : State :=
      if s.isNormal = true ∧ s.fault.state = .active then
        { u with fault := { u.fault with totals := u.fault.totals.set l (f (s.fault.totals[l])) } }
      else u
    let counted (u : State) : State := totals (fun y => { y with goodFrames := y.goodFrames + 1 }) u
    let received (r' : Receiver) (u : State) : State := u.setLine l { x with receiver := r' }
    let follow : Receiver := { r with inFrame := true, bits := r.bits.drop 4224 }
    let channel (m : Mixer) (c : Fin 2) : Mixer :=
      let y : Fin 64 := ⟨58 + 2 * l.val + c.val, by omega⟩
      if m.next.arrivals[y] = 0 then (List.finRange 48).foldl (fun m j =>
        m.takeSample y ((m.frame.toNat + 1) % 8) j
          (BitVec.ofNat 24 (ofBE (slice frame (16 + 144 * c.val + 3 * j.val) 3)))) m
      else { m with sources := m.sources.set y { m.sources[y] with rewrites := (m.sources[y]).rewrites + 48 } }
    let delivered (r' : Receiver) (u : State) : State :=
      if frameKind frame = 8 ∧ x.applied.returnEnabled = true ∧ framePayloadLength frame = 288 then
        received r' (if s.mixer.stopped then u
          else { u with mixer := (List.finRange 2).foldl channel s.mixer })
      else
        match frameKind frame == 9, x.applied.liveStream with
        | true, some n =>
          received r' (if s.governor.stopped then u
            else u.setStream n { s.stream n with keyRequest := true })
        | _, _ => received { r' with ignored := r'.ignored + 1 } u
    (r.sync = .hunt →
      (good → r.heldGood = false → exec (.candidateFrame l us) s₀ = .next
        (received { follow with heldGood := true, los := false }
          (if r.los then
            offer l.val (.lineSignal false .hunt)
              (if s.isNormal then
                counted { s with fault := { s.fault with los := s.fault.los.set l false } } else s)
          else counted s))) ∧
      (good → r.heldGood = true → exec (.candidateFrame l us) s₀ = .next
        (delivered { follow with sync := .locked, badFrames := 0, heldGood := false }
          (offer l.val (.lineSignal r.los .locked) (counted s)))) ∧
      (¬ good → ∃ found bits, exec (.candidateFrame l us) s₀ = .next
          (received { r with heldGood := false, inFrame := found, bits := bits } s) ∧
        (∀ p, (tail.drop p).take 16 = sync → (∀ q, q < p → (tail.drop q).take 16 ≠ sync) →
          found = true ∧ bits = tail.drop p) ∧
        ((∀ p, (tail.drop p).take 16 ≠ sync) → found = false ∧ bits = tail.drop (tail.length - 15)))) ∧
    (r.sync = .locked →
      (good → exec (.lockedFrame l us) s₀ = .next (delivered { follow with badFrames := 0 } (counted s))) ∧
      (¬ good →
        let crc := totals (fun y => { y with crcErrors := y.crcErrors + 1 }) s
        (r.badFrames < 3 → exec (.lockedFrame l us) s₀ = .next
          (received { follow with badFrames := r.badFrames + 1 } crc)) ∧
        (3 ≤ r.badFrames → ∃ found bits, exec (.lockedFrame l us) s₀ = .next
            (received
              { r with sync := .hunt, heldGood := false, badFrames := 0, inFrame := found, bits := bits }
              (offer l.val (.lineSignal r.los .hunt) crc)) ∧
          (∀ p, (tail.drop p).take 16 = sync → (∀ q, q < p → (tail.drop q).take 16 ≠ sync) →
            found = true ∧ bits = tail.drop p) ∧
          ((∀ p, (tail.drop p).take 16 ≠ sync) → found = false ∧ bits = tail.drop (tail.length - 15)))))

/-- SYMBOL_SENT and SYMBOL_RECEIVED (R156, R181, R182, R185-R187, R194, R195). The output of a line is by R156's
table, and the hold signal after the entry into PASS-ONLY mode; a running line with no row of the table has no signal
(the model's choice, log 30). The hold signal gives the coder one bits, a frame its next bit, a retransmission under
REMOTE the next bit decided, no signal nothing; what leaves goes to the line's own receiver too under LOCAL, which
then takes it in place of the pair. A bit taken leaves Z symbol times behind; after a change to a shorter code the
symbols that are late leave first, and what the pair carries until the first symbol is settled too (the model's
choice, log 17). A space counts toward LOS and a mark sets the space count to 0; at a count of 96 with LOS clear a
declaration is due, one that stood at 96 before with LOS clear included (the model's choice, log 36). A mark of the
last polarity is a code violation unless it completes a valid substitution, whose symbols then decode to zeros (R186;
over symbols already decided, the model's choice, log 41). The bits decided reach frame sync and, under REMOTE, wait
to be sent: while no frame is being taken, the receiver takes the first place in its bits that matches the sync word,
or keeps the last 15 (R188). That SYMBOL_SENT changes nothing under REMOTE with no bit decided (log 25), and that
SYMBOL_RECEIVED under LOCAL takes the oldest symbol sent, and nothing when none waits under an output (log 23), is the
model's choice. With rate class OFF, and after the entry into PASS-ONLY mode, no symbol is taken. -/
def Obligations.SymbolsAreSentAndReceived : Prop :=
  (∀ x : Line,
    (x.applied.rate = .off → x.output = .noSignal) ∧
    (x.applied.rate ≠ .off → x.stopped = true → x.output = .hold) ∧
    (x.applied.rate ≠ .off → x.stopped = false →
      (x.tx ≠ none → x.output = .frame) ∧
      (x.tx = none → x.applied.loopback = .remote → x.output = .retransmission) ∧
      (x.tx = none → x.applied.loopback ≠ .remote →
        (x.function = .idle → x.output = .noSignal) ∧
        (x.function = .active → x.startPending = true →
          x.output = if x.holdBefore then .hold else .noSignal) ∧
        (x.function = .active → x.startPending = false → x.output = .noSignal) ∧
        (x.function = .halting → x.output = .noSignal) ∧
        (x.function = .halted → x.output = .hold)))) ∧
  ∀ (l : LineId) (s : State),
    let x := s.line l
    let code := x.applied.code
    let late := x.coder.out ≠ [] ∧ code.length < x.coder.pending + x.coder.out.length
    let left (y : Line) (c : Coder) : State :=
      let e := c.emit code
      s.setLine l { y with
        coder := e.2
        level := e.1
        looped := if x.applied.loopback = .localLoop ∧ x.stopped = false then x.looped ++ [e.1] else x.looped }
    (x.output = .noSignal → exec (.symbolSent l) s = .next (s.setLine l x)) ∧
    (x.output = .hold → exec (.symbolSent l) s = .next
      (left x (if late then x.coder else x.coder.take code true))) ∧
    (∀ f, x.output = .frame → x.tx = some f → f.sent < 4224 → exec (.symbolSent l) s = .next
      (if late then left x x.coder
      else left { x with tx := some { f with sent := f.sent + 1 } }
        (x.coder.take code (((lineBits f.bytes)[f.sent]?).getD false)))) ∧
    (x.output = .retransmission →
      (x.retransmit = [] → exec (.symbolSent l) s = .next (s.setLine l x)) ∧
      (∀ b rest, x.retransmit = b :: rest → exec (.symbolSent l) s = .next
        (if late then left x x.coder else left { x with retransmit := rest } (x.coder.take code b)))) ∧
    (∀ level, x.applied.rate = .off ∨ x.stopped = true → exec (.symbolReceived l level) s = .next s) ∧
    (x.applied.rate ≠ .off → x.stopped = false →
      let received (y : Line) (symbol : Symbol) (t : State) : Prop :=
        let d := y.receiver.decode code symbol
        let e := d.decide code
        ChangesOnly [.lines] s t ∧ OtherLinesSame l s t ∧
        t.line l = { y with receiver := (t.line l).receiver, retransmit := (t.line l).retransmit } ∧
        (t.line l).retransmit = (if x.output = .retransmission then x.retransmit ++ e.1 else x.retransmit) ∧
        (t.line l).receiver.los = x.receiver.los ∧ (t.line l).receiver.sync = x.receiver.sync ∧
        (let after := (t.line l).receiver;
          after = { e.2 with inFrame := after.inFrame, bits := after.bits, losDue := after.losDue }) ∧
        (let bits := d.undecided.take (d.undecided.length - (code.length - 1));
          e.1 = bits.map (·.bit) ∧ e.2.undecided = d.undecided.drop bits.length ∧
            e.2.recent = (d.recent ++ bits).drop ((d.recent ++ bits).length - 3)) ∧
        (t.line l).receiver.heldGood = x.receiver.heldGood ∧
        (t.line l).receiver.badFrames = x.receiver.badFrames ∧
        (t.line l).receiver.ignored = x.receiver.ignored ∧
        (let heard := x.receiver.recent ++ x.receiver.undecided
          let before := heard.drop (heard.length - (code.length - 1))
          let completes (p : Bool) := p = x.receiver.lastPositive ∧ code ≠ .off ∧
            before.length = code.length - 1 ∧ (∀ u, before.head? = some u → u.symbol = .space ∨ u.bit = true) ∧
            (∀ u ∈ before.tail, u.symbol = .space)
          let bits := x.receiver.undecided;
          (symbol = .space → d.undecided = bits ++ [{ symbol := .space, bit := false }] ∧
            (t.line l).receiver.violationsDue = x.receiver.violationsDue) ∧
          (∀ p, symbol = .mark p → completes p →
            d.undecided = bits.map (fun u => { u with bit := false }) ++ [{ symbol := .mark p, bit := false }] ∧
            (t.line l).receiver.violationsDue = x.receiver.violationsDue) ∧
          (∀ p, symbol = .mark p → ¬ completes p →
            d.undecided = bits ++ [{ symbol := .mark p, bit := true }] ∧
            (t.line l).receiver.violationsDue =
              x.receiver.violationsDue + if p = x.receiver.lastPositive then 1 else 0)) ∧
        (x.receiver.inFrame = true → (t.line l).receiver.bits = x.receiver.bits ++ e.1) ∧
        (x.receiver.inFrame = false →
          let sync := [true, false, true, true, false, true, false, true,
            false, false, true, false, true, true, true, false]
          let all := x.receiver.bits ++ e.1
          let after := (t.line l).receiver
          (e.1 = [] → after.inFrame = false ∧ after.bits = x.receiver.bits) ∧
          (e.1 ≠ [] →
            (∀ p, (all.drop p).take 16 = sync → (∀ q, q < p → (all.drop q).take 16 ≠ sync) →
              after.inFrame = true ∧ after.bits = all.drop p) ∧
            ((∀ p, (all.drop p).take 16 ≠ sync) →
              after.inFrame = false ∧ after.bits = all.drop (all.length - 15)))) ∧
        (symbol = .space → (t.line l).receiver.spaces = min (x.receiver.spaces + 1) 96 ∧
          (t.line l).receiver.lastPositive = x.receiver.lastPositive ∧
          (x.receiver.los = false → 95 ≤ x.receiver.spaces → (t.line l).receiver.losDue = true) ∧
          (x.receiver.los = true ∨ x.receiver.spaces < 95 →
            (t.line l).receiver.losDue = x.receiver.losDue)) ∧
        (∀ p, symbol = .mark p → (t.line l).receiver.spaces = 0 ∧ (t.line l).receiver.lastPositive = p ∧
          (t.line l).receiver.losDue = x.receiver.losDue)
      ∀ level,
        (x.applied.loopback ≠ .localLoop →
          ∃ t, exec (.symbolReceived l level) s = .next t ∧ received x level t) ∧
        (x.applied.loopback = .localLoop →
          (∀ y rest, x.looped = y :: rest →
            ∃ t, exec (.symbolReceived l level) s = .next t ∧ received { x with looped := rest } y t) ∧
          (x.looped = [] → x.output = .noSignal →
            ∃ t, exec (.symbolReceived l level) s = .next t ∧ received x .space t) ∧
          (x.looped = [] → x.output ≠ .noSignal → exec (.symbolReceived l level) s = .next s)))

/-- R182, R183 and R186. Under each zero-run code, from a coder with nothing pending or queued and a receiver that has
seen its last mark and holds no symbol, the symbols the coder gives for any bits decode to those bits (less the zeros
still pending), none of them is a code violation, and under Z3 and Z4 no run of Z spaces is among them. A one bit is
the pending spaces and a mark of opposite polarity, which changes the parity. A zero bit is a space under OFF; under Z3
and Z4 it is pending, or, as the Z-th, one of the Z symbols of a substitution: with odd parity Z - 1 spaces and a
violation, with even parity a mark B, Z - 2 spaces and a violation, after which the parity is even. A symbol leaves
once more than Z wait. That zeros pending at a change to a shorter code go out as spaces before it (log 45), and that
zero level stands until the first symbol is due (log 17), is the model's choice. -/
def Obligations.LineCodeDecodesWhatItCodes : Prop :=
  (∀ (code : ZeroRun) (c : Coder) (r : Receiver) (bits : List Bool), c.pending = 0 → c.out = [] →
    r.undecided = [] → r.lastPositive = c.lastPositive →
    let coded := codeBits code c bits
    let heard := decodeSymbols code r coded.out
    heard.1 ++ heard.2.undecided.map (·.bit) = bits.take (bits.length - coded.pending) ∧
      heard.2.violationsDue = r.violationsDue ∧ heard.2.lastPositive = coded.lastPositive ∧
      coded.pending ≤ code.length - 1 ∧
      (code ≠ .off → ∀ before after : List Symbol,
        coded.out ≠ before ++ List.replicate code.length .space ++ after)) ∧
  (∀ (code : ZeroRun) (z : Nat) (c : Coder),
    (code, z) ∈ [(ZeroRun.off, 0), (ZeroRun.z3, 3), (ZeroRun.z4, 4)] →
    let spaces (n : Nat) : List Symbol := List.replicate n .space
    let same : Symbol := .mark c.lastPositive
    let opposite : Symbol := .mark (!c.lastPositive)
    code.length = z ∧
    c.take code true =
      { lastPositive := !c.lastPositive, odd := !c.odd, pending := 0,
        out := c.out ++ spaces c.pending ++ [opposite] } ∧
    (code = .off → c.take code false = { c with pending := 0, out := c.out ++ spaces (c.pending + 1) }) ∧
    (code ≠ .off →
      (c.pending + 1 < z → c.take code false = { c with pending := c.pending + 1 }) ∧
      (z ≤ c.pending + 1 → c.odd = true → c.take code false =
        { lastPositive := c.lastPositive, odd := false, pending := 0,
          out := c.out ++ spaces (c.pending + 1 - z) ++ spaces (z - 1) ++ [same] }) ∧
      (z ≤ c.pending + 1 → c.odd = false → c.take code false =
        { lastPositive := !c.lastPositive, odd := false, pending := 0,
          out := c.out ++ spaces (c.pending + 1 - z) ++ [opposite] ++ spaces (z - 2) ++ [opposite] })) ∧
    (∀ x rest, c.out = x :: rest → z < c.pending + c.out.length → c.emit code = (x, { c with out := rest })) ∧
    (c.out = [] ∨ c.pending + c.out.length ≤ z → c.emit code = (.space, c)))

/-- R177, R178, R180 and R188. Every frame built of a payload of at most 508 bytes is 528 bytes long and good, and its
fields read back as they were given: kind, flags, line, sequence, audio count, tag, length, position and payload
(section 11.5). Bytes go in line order most significant bit first, and whole bytes come back from their bits. The CRC
is the register of R180, from all ones, run over the bits with the generator polynomial and inverted, with the check
value R180 gives. 528 bytes are a good frame exactly when the first two are the sync word and the last four are the CRC
of the others, most significant byte first. -/
def Obligations.EveryBuiltFrameIsGood : Prop :=
  (∀ (kind : Nat) (unlocked isPartial key last : Bool) (line : LineId) (sequence : Count16)
    (audioCount : Count32) (tag : Nat) (position : Count32) (payload : List Byte),
    kind < 16 → tag < 65536 → payload.length ≤ 508 →
    let bs := frameBytes kind unlocked isPartial key last line sequence audioCount tag position payload
    bs.length = 528 ∧ goodFrame bs = true ∧ frameKind bs = kind ∧
      byteAt bs 2 = 16 * kind + (if unlocked then 8 else 0) + (if isPartial then 4 else 0) +
        (if key then 2 else 0) + (if last then 1 else 0) ∧
      byteAt bs 3 = line.val ∧ framePayloadLength bs = payload.length ∧ slice bs 16 payload.length = payload ∧
      ofBE (slice bs 4 2) = sequence.toNat ∧ ofBE (slice bs 6 2) = audioCount.toNat % 65536 ∧
      ofBE (slice bs 8 2) = tag ∧ ofBE (slice bs 12 4) = position.toNat ∧
      bytesOfBits (lineBits bs) = bs) ∧
  (∀ bs : List Byte,
    let register := (lineBits bs).foldl
      (fun (reg : BitVec 32) b => if reg.msb = b then reg <<< 1 else (reg <<< 1) ^^^ 0x04C11DB7) 0xFFFFFFFF
    let crc := crc32 (bs.take 524)
    (lineBits bs).length = 8 * bs.length ∧ bytesOfBits (lineBits bs) = bs ∧
    (∀ i j : Nat, j < 8 → (lineBits bs)[8 * i + j]? = bs[i]?.map (·.getLsbD (7 - j))) ∧
    crc32 bs = ~~~ register ∧
    (bs.length = 528 → (goodFrame bs = true ↔ bs.take 2 = [0xB5, 0x2E] ∧
      bs.drop 524 = [crc.extractLsb' 24 8, crc.extractLsb' 16 8, crc.extractLsb' 8 8, crc.extractLsb' 0 8]))) ∧
  crc32 [0x31, 0x32, 0x33, 0x34, 0x35, 0x36, 0x37, 0x38, 0x39] = 0xFC891918

/-! ## Arithmetic and the window table -/

/-- R87, R88, R90 and R91: a gain is g0 and the share (i + 1) / 48 of the way to g1, cut toward zero, and a product is
the sample times the gain, negated under invert; a gain lies between g0 and g1, moves toward g1 and reaches it at
index 47; an output is the accumulator over 16,384 to the nearest whole number, a half going away from zero, and
limited to the 24-bit range. -/
def Obligations.GainsAndOutputsFollowTheArithmetic : Prop :=
  (∀ (q : Route) (i j : Fin 48), i ≤ j →
    q.gainAt i = q.g0.toNat + (((q.g1.toNat : Int) - q.g0.toNat) * (i.val + 1)).tdiv 48 ∧
    (∀ x : Sample, q.product i x = if q.record.invert then -(x.toInt * q.gainAt i) else x.toInt * q.gainAt i) ∧
    q.gainAt 47 = q.g1.toNat ∧
    (q.g0.toNat ≤ q.g1.toNat → (q.g0.toNat : Int) ≤ q.gainAt i ∧ q.gainAt i ≤ q.gainAt j ∧
      q.gainAt j ≤ q.g1.toNat) ∧
    (q.g1.toNat ≤ q.g0.toNat → (q.g1.toNat : Int) ≤ q.gainAt j ∧ q.gainAt j ≤ q.gainAt i ∧
      q.gainAt i ≤ q.g0.toNat)) ∧
  (∀ a : Accumulator,
    let y := roundOutput a.value.toInt
    2 * (a.value.toInt - 16384 * y).natAbs ≤ 16384 ∧
    (2 * (a.value.toInt - 16384 * y).natAbs = 16384 → a.value.toInt.natAbs < 16384 * y.natAbs) ∧
    (a.output.toInt = if y < -8388608 then -8388608 else if 8388607 < y then 8388607 else y) ∧
    (a.saturates = true ↔ y < -8388608 ∨ 8388607 < y))

/-- R11's validation. An entry's fields stand at the places of section 11.2, and the entry named is the first that fails
a condition of R11; with none named no entry fails one, that a PICTURE, CODED or AUDIO_IN entry of more than 65,536
pages is judged by these conditions alone included (the model's reading, log 36). So, for two entries of a table that
passes: no enabled part-owned window shares a byte with another enabled window or with the control page, an enabled
part-owned kind, a stream's or a camera's window stands once, and every enabled window lies within 2^36 on page
boundaries. -/
def Obligations.ValidTableKeepsOwnedWindowsApart : Prop :=
  (∀ (bs : List Byte) (k : Fin 16),
    let e := (windowTable bs)[k]
    let o := 16 * k.val
    Holds bs o 8 e.base.toNat ∧ Holds bs (o + 8) 4 e.size.toNat ∧ Holds bs (o + 12) 1 e.kind.toNat ∧
      Holds bs (o + 13) 1 e.object.toNat ∧ Holds bs (o + 14) 2 e.perFrame.toNat) ∧
  (∀ (page : Nat) (table : List WindowEntry),
    let enabled (e : WindowEntry) : Prop := e.kind ≠ 0 ∧ e.size ≠ 0
    let owned (e : WindowEntry) : Prop := e.kind = 4 ∨ e.kind = 5 ∨ e.kind = 6 ∨ e.kind = 7
    let pages (e : WindowEntry) : Nat := e.size.toNat
    let object (e : WindowEntry) : Nat := e.object.toNat
    let first (e : WindowEntry) : Nat := e.base.toNat
    let limit (e : WindowEntry) : Nat := e.base.toNat + 4096 * e.size.toNat
    let failsAlone (e : WindowEntry) : Prop :=
      7 < e.kind.toNat ∨ 2 ^ 36 < limit e ∨ first e % 4096 ≠ 0 ∨
      (e.kind = 1 ∧ 57 < object e) ∨ (e.kind = 2 ∧ 7 < object e) ∨ (e.kind = 3 ∧ 3 < object e) ∨
      (owned e ∧ object e ≠ 0) ∨
      (e.kind = 1 ∧ 57 < object e + 2 * pages e - 1) ∨
      (e.kind = 2 ∧ (e.perFrame = 0 ∨ 4096 < e.perFrame.toNat ∨ pages e < e.perFrame.toNat)) ∨
      (e.kind = 3 ∧ pages e = 1) ∨
      (e.kind = 4 ∧ pages e ≠ 8) ∨ (e.kind = 5 ∧ 16 < pages e) ∨ (e.kind = 6 ∧ 8 < pages e) ∨
      (e.kind = 7 ∧ pages e ≠ 1) ∨
      (owned e ∧ first e < page + 8192 ∧ page < limit e)
    let failsAgainst (e d : WindowEntry) : Prop :=
      (e.kind = 1 ∧ d.kind = 1 ∧ ∃ source : Nat,
        object e ≤ source ∧ source < object e + 2 * pages e ∧
        object d ≤ source ∧ source < object d + 2 * pages d) ∨
      ((e.kind = 2 ∨ e.kind = 3) ∧ d.kind = e.kind ∧ d.object = e.object) ∨
      (owned e ∧ d.kind = e.kind) ∨
      ((owned e ∨ owned d) ∧ first e < limit d ∧ first d < limit e)
    let fails (k : Nat) : Prop := ∃ e, table[k]? = some e ∧ enabled e ∧
      (failsAlone e ∨ ∃ j d, j < k ∧ table[j]? = some d ∧ enabled d ∧ failsAgainst e d)
    (∀ k, firstBadEntry page [] table = some k ↔ fails k ∧ ∀ j, j < k → ¬ fails j) ∧
    (firstBadEntry page [] table = none ↔ ∀ k, ¬ fails k)) ∧
  ∀ (page : Nat) (table : List WindowEntry), firstBadEntry page [] table = none →
    (∀ e ∈ table, e.enabled = true → e.first % 4096 = 0 ∧ e.limit ≤ 2 ^ 36 ∧
      (e.kindOf.owned = true → e.object = 0 ∧ (e.limit ≤ page ∨ page + 8192 ≤ e.first))) ∧
    (∀ (i j : Nat) (d e : WindowEntry), table[i]? = some d → table[j]? = some e → i < j →
      d.enabled = true → e.enabled = true →
      (d.kindOf.owned = true ∨ e.kindOf.owned = true → d.limit ≤ e.first ∨ e.limit ≤ d.first) ∧
      (d.kindOf = e.kindOf → d.kindOf.owned = false) ∧
      (d.kindOf = e.kindOf → (d.kindOf = .coded ∨ d.kindOf = .picture) → d.object ≠ e.object))

/-! ## The measurement -/

/-- The measurement timer takes an audio boundary in NORMAL mode (R207, R209, R210): in INACTIVE nothing is
counted; in STARTING everything is zeroed and the state is ACTIVE; in ACTIVE each line with LOS declared
counts an LOS audio frame and the frame count goes up, and when that reaches the interval length the interval
ends, its blocks are taken, with the audio frame counter this boundary has left (R50), and their three writes made
in line order. -/
def Obligations.MeasurementTimerRunsTheIntervals : Prop :=
  ∀ (b : AudioBoundary) (rest : List AudioBoundary) (s : State), s.fault.boundaries = b :: rest →
    s.isNormal = true →
    let x := s.fault
    let counted := Vector.ofFn fun l : Fin 3 =>
      { x.totals[l] with losFrames := (x.totals[l]).losFrames + if x.los[l] then 1 else 0 }
    (x.state = .inactive → exec .measurementTimer s = .next { s with fault := { x with boundaries := rest } }) ∧
    (x.state = .starting → exec .measurementTimer s = .next { s with fault := { x with
      boundaries := rest, totals := Vector.replicate 3 Totals.zero, number := 0, frames := 0,
      state := .active } }) ∧
    (x.state = .active → x.frames + 1 < x.interval → exec .measurementTimer s = .next { s with
      fault := { x with boundaries := rest, totals := counted, frames := x.frames + 1 } }) ∧
    (x.state = .active → x.interval ≤ x.frames + 1 →
      let blocks := Vector.ofFn fun l : Fin 3 =>
        { totals := counted[l], interval := x.number + 1, length := x.interval,
          audioCount := b.count : MeasBlock }
      let write (l : LineId) : Made := { purpose := .measWrite x.nextSerial l false, fixed := none }
      exec .measurementTimer s = .next
        (makeRequest faultQueue (write 2) (makeRequest faultQueue (write 1) (makeRequest faultQueue (write 0)
          { s with fault := { x with
              boundaries := rest, totals := counted, number := x.number + 1, buffer := blocks, frames := 0,
              interval := x.stagedInterval.getD x.interval, stagedInterval := none,
              writes := x.writes ++ [{ serial := x.nextSerial, opened := 3, begun := false, number := 0 }],
              nextSerial := x.nextSerial + 1 } }))))

/-! ## Invariants that every step keeps -/

/-- R134: for each stream, F equals the sum of the unsent bytes of its QUEUED and SENDING entries and is at
most the applied capacity, and its queues keep their bounds, from any state in which they do. -/
def Obligations.StreamFillIsTheSumOfUnsentBytes : Prop :=
  ∀ s t : State, s.governor.Sound → step s = .next t → t.governor.Sound

/-- R30: the pending report queue never holds two records of one kind and object, and its FAULT records stand
at its head. -/
def Obligations.ReportQueueHoldsEachPairOnce : Prop :=
  ∀ s t : State, s.report.Sound → step s = .next t → t.report.Sound

/-- R107, R121, R124: the close-order list holds the CLOSED records, each once; a camera has at most one OPEN
clip; the uplink queue holds at most 8 copies. -/
def Obligations.CloseOrderListHoldsTheClosedRecords : Prop :=
  ∀ s t : State, s.label.Sound → step s = .next t → t.label.Sound

/-- R53, R56, R57: the timecode, and a staged jam, stay valid timecodes of the rate in force. A valid timecode has hours
to 23, minutes and seconds to 59, frames below the frame base of its rate, and names no skipped frame: at 30DF and 60DF
the frames below 2 and below 4 of second 0 of a minute that is no multiple of 10. It advances by one frame, with the
carries of R53 and past the frames skipped, from the last frame of a day to 0; and for a new rate its frames are brought
below the frame base and past the frames skipped. -/
def Obligations.TimecodeStaysValid : Prop :=
  (∀ s t : State, s.timing.Sound → step s = .next t → t.timing.Sound) ∧
  (∀ (rate : VideoRate) (base skipped : Nat) (x : Timecode),
    (rate, base, skipped) ∈ [(VideoRate.r25, 25, 0), (VideoRate.r30, 30, 0), (VideoRate.r50, 50, 0),
      (VideoRate.r60, 60, 0), (VideoRate.r30df, 30, 2), (VideoRate.r60df, 60, 4)] →
    let frame := min x.ff (base - 1)
    (x.valid rate = true ↔ x.hh ≤ 23 ∧ x.mm ≤ 59 ∧ x.ss ≤ 59 ∧ x.ff < base ∧
      ¬ (x.ss = 0 ∧ x.mm % 10 ≠ 0 ∧ x.ff < skipped)) ∧
    (x.valid rate = true →
      (x.advance rate).valid rate = true ∧
      (x.ff + 1 < base → x.advance rate = { x with ff := x.ff + 1 }) ∧
      (x.ff + 1 = base → x.ss < 59 → x.advance rate = { x with ss := x.ss + 1, ff := 0 }) ∧
      (x.ff + 1 = base → x.ss = 59 → x.mm < 59 → x.advance rate =
        { hh := x.hh, mm := x.mm + 1, ss := 0, ff := if (x.mm + 1) % 10 = 0 then 0 else skipped }) ∧
      (x.ff + 1 = base → x.ss = 59 → x.mm = 59 → x.hh < 23 → x.advance rate =
        { hh := x.hh + 1, mm := 0, ss := 0, ff := 0 }) ∧
      (x.ff + 1 = base → x.ss = 59 → x.mm = 59 → x.hh = 23 → x.advance rate =
        { hh := 0, mm := 0, ss := 0, ff := 0 })) ∧
    x.adjust rate = { x with ff := if x.ss = 0 ∧ x.mm % 10 ≠ 0 ∧ frame < skipped then skipped else frame })

/-- R11, R12, R19: the applied window table stays one that passes the validation of R11. -/
def Obligations.AppliedTableStaysValid : Prop :=
  ∀ s t : State, s.TableSound → step s = .next t → t.TableSound

/-- R2, R17, R201, R202, R203: the mode is PASS-ONLY exactly while a cause is held and the counts keep their
bounds; and PASS-ONLY mode, with its cause, lasts until RESET. -/
def Obligations.PassOnlyLastsUntilReset : Prop :=
  ∀ s t : State, step s = .next t →
    (s.PathSound → t.PathSound) ∧
    (s.fault.mode = .passOnly → (∀ cpb rest, s.pending ≠ .reset cpb :: rest) →
      t.fault.mode = .passOnly ∧ t.fault.cause = s.fault.cause)

/-- Once every block has taken the entry into PASS-ONLY mode, every command but RESET leaves frozen what the
manual freezes (R27, R37, R62, R85, R101, R127, R149, R175, R196, R203, R212), but for the parity marks that upsets
set, and the part makes no request of its
own: what goes out at the memory port is a forwarded request. -/
def Obligations.StoppedPartIsFrozen : Prop :=
  ∀ (c : Instr) (s t : State), s.AllStopped → (∀ cpb, c ≠ .reset cpb) → exec c s = .next t →
    Frozen s t ∧ t.AllStopped ∧
      (t.path.memoryOut = s.path.memoryOut ∨ t.path.memoryOut = none ∨
        ∃ r rest, s.path.forward = r :: rest ∧ t.path.memoryOut = some
          { tag := r.tag.setWidth 8, request := { addr := r.addr, burst := r.burst } })

/-- R18: what one acceptance puts on the memory port is the oldest forwarded request under its own tag, or a
request of the part's own under a tag of 64-95, while the path unit has not taken the entry into PASS-ONLY mode
(R201; the model's reading of when, log 11); and a write of the part's own lies in its applied BUS_OUT,
LABEL, REPORT or MEAS window or on the completion code and result fields of a command record. -/
def Obligations.OriginatedWritesStayInside : Prop :=
  ∀ (pick : BitVec 5) (s t : State) (x : Transfer), exec (.memoryPortAcceptance pick) s = .next t →
    t.path.memoryOut = some x →
    (∃ r rest, s.path.forward = r :: rest ∧ x.tag = r.tag.setWidth 8 ∧
      x.request = { addr := r.addr, burst := r.burst } ∧ t.path.forward = rest) ∨
    (64 ≤ x.tag.toNat ∧ x.tag.toNat ≤ 95 ∧ t.path.forward = s.path.forward ∧ s.path.stopped = false ∧
      ((∃ n, x.request.burst = .read n) ∨ WriteAllowed s x.request))

/-- The state after reset satisfies every invariant stated above. -/
def Obligations.ResetIsSound : Prop :=
  State.reset.governor.Sound ∧ State.reset.report.Sound ∧ State.reset.label.Sound ∧
    State.reset.timing.Sound ∧ State.reset.TableSound ∧ State.reset.PathSound
end

