-- ==== Sys2Proof/Laws/State.lean ====
section
/-! SUPPORT. One lemma per field per update of the state record, and the readings of the named parts after
an update. -/

namespace Sys2Proof.Machine

@[simp] theorem State.setLine_path (s : State) (l : LineId) (x : Line) :
    (s.setLine l x).path = s.path := rfl
@[simp] theorem State.setLine_command (s : State) (l : LineId) (x : Line) :
    (s.setLine l x).command = s.command := rfl
@[simp] theorem State.setLine_report (s : State) (l : LineId) (x : Line) :
    (s.setLine l x).report = s.report := rfl
@[simp] theorem State.setLine_timing (s : State) (l : LineId) (x : Line) :
    (s.setLine l x).timing = s.timing := rfl
@[simp] theorem State.setLine_mixer (s : State) (l : LineId) (x : Line) :
    (s.setLine l x).mixer = s.mixer := rfl
@[simp] theorem State.setLine_label (s : State) (l : LineId) (x : Line) :
    (s.setLine l x).label = s.label := rfl
@[simp] theorem State.setLine_governor (s : State) (l : LineId) (x : Line) :
    (s.setLine l x).governor = s.governor := rfl
@[simp] theorem State.setLine_lines (s : State) (l : LineId) (x : Line) :
    (s.setLine l x).lines = s.lines.set l x := rfl
@[simp] theorem State.setLine_fault (s : State) (l : LineId) (x : Line) :
    (s.setLine l x).fault = s.fault := rfl
@[simp] theorem State.setLine_pending (s : State) (l : LineId) (x : Line) :
    (s.setLine l x).pending = s.pending := rfl

@[simp] theorem State.setStream_path (s : State) (n : Fin 4) (x : Stream) :
    (s.setStream n x).path = s.path := rfl
@[simp] theorem State.setStream_command (s : State) (n : Fin 4) (x : Stream) :
    (s.setStream n x).command = s.command := rfl
@[simp] theorem State.setStream_report (s : State) (n : Fin 4) (x : Stream) :
    (s.setStream n x).report = s.report := rfl
@[simp] theorem State.setStream_timing (s : State) (n : Fin 4) (x : Stream) :
    (s.setStream n x).timing = s.timing := rfl
@[simp] theorem State.setStream_mixer (s : State) (n : Fin 4) (x : Stream) :
    (s.setStream n x).mixer = s.mixer := rfl
@[simp] theorem State.setStream_label (s : State) (n : Fin 4) (x : Stream) :
    (s.setStream n x).label = s.label := rfl
@[simp] theorem State.setStream_governor (s : State) (n : Fin 4) (x : Stream) :
    (s.setStream n x).governor = { s.governor with streams := s.governor.streams.set n x } := rfl
@[simp] theorem State.setStream_lines (s : State) (n : Fin 4) (x : Stream) :
    (s.setStream n x).lines = s.lines := rfl
@[simp] theorem State.setStream_fault (s : State) (n : Fin 4) (x : Stream) :
    (s.setStream n x).fault = s.fault := rfl
@[simp] theorem State.setStream_pending (s : State) (n : Fin 4) (x : Stream) :
    (s.setStream n x).pending = s.pending := rfl

@[simp] theorem State.setQueue_path (s : State) (q : Fin 8) (x : RequestQueue) :
    (s.setQueue q x).path = { s.path with queues := s.path.queues.set q x } := rfl
@[simp] theorem State.setQueue_command (s : State) (q : Fin 8) (x : RequestQueue) :
    (s.setQueue q x).command = s.command := rfl
@[simp] theorem State.setQueue_report (s : State) (q : Fin 8) (x : RequestQueue) :
    (s.setQueue q x).report = s.report := rfl
@[simp] theorem State.setQueue_timing (s : State) (q : Fin 8) (x : RequestQueue) :
    (s.setQueue q x).timing = s.timing := rfl
@[simp] theorem State.setQueue_mixer (s : State) (q : Fin 8) (x : RequestQueue) :
    (s.setQueue q x).mixer = s.mixer := rfl
@[simp] theorem State.setQueue_label (s : State) (q : Fin 8) (x : RequestQueue) :
    (s.setQueue q x).label = s.label := rfl
@[simp] theorem State.setQueue_governor (s : State) (q : Fin 8) (x : RequestQueue) :
    (s.setQueue q x).governor = s.governor := rfl
@[simp] theorem State.setQueue_lines (s : State) (q : Fin 8) (x : RequestQueue) :
    (s.setQueue q x).lines = s.lines := rfl
@[simp] theorem State.setQueue_fault (s : State) (q : Fin 8) (x : RequestQueue) :
    (s.setQueue q x).fault = s.fault := rfl
@[simp] theorem State.setQueue_pending (s : State) (q : Fin 8) (x : RequestQueue) :
    (s.setQueue q x).pending = s.pending := rfl

@[simp] theorem State.setPath_path (s : State) (x : Path) :
    (s.setPath x).path = x := rfl
@[simp] theorem State.setPath_command (s : State) (x : Path) :
    (s.setPath x).command = s.command := rfl
@[simp] theorem State.setPath_report (s : State) (x : Path) :
    (s.setPath x).report = s.report := rfl
@[simp] theorem State.setPath_timing (s : State) (x : Path) :
    (s.setPath x).timing = s.timing := rfl
@[simp] theorem State.setPath_mixer (s : State) (x : Path) :
    (s.setPath x).mixer = s.mixer := rfl
@[simp] theorem State.setPath_label (s : State) (x : Path) :
    (s.setPath x).label = s.label := rfl
@[simp] theorem State.setPath_governor (s : State) (x : Path) :
    (s.setPath x).governor = s.governor := rfl
@[simp] theorem State.setPath_lines (s : State) (x : Path) :
    (s.setPath x).lines = s.lines := rfl
@[simp] theorem State.setPath_fault (s : State) (x : Path) :
    (s.setPath x).fault = s.fault := rfl
@[simp] theorem State.setPath_pending (s : State) (x : Path) :
    (s.setPath x).pending = s.pending := rfl

@[simp] theorem State.setMixer_path (s : State) (x : Mixer) :
    (s.setMixer x).path = s.path := rfl
@[simp] theorem State.setMixer_command (s : State) (x : Mixer) :
    (s.setMixer x).command = s.command := rfl
@[simp] theorem State.setMixer_report (s : State) (x : Mixer) :
    (s.setMixer x).report = s.report := rfl
@[simp] theorem State.setMixer_timing (s : State) (x : Mixer) :
    (s.setMixer x).timing = s.timing := rfl
@[simp] theorem State.setMixer_mixer (s : State) (x : Mixer) :
    (s.setMixer x).mixer = x := rfl
@[simp] theorem State.setMixer_label (s : State) (x : Mixer) :
    (s.setMixer x).label = s.label := rfl
@[simp] theorem State.setMixer_governor (s : State) (x : Mixer) :
    (s.setMixer x).governor = s.governor := rfl
@[simp] theorem State.setMixer_lines (s : State) (x : Mixer) :
    (s.setMixer x).lines = s.lines := rfl
@[simp] theorem State.setMixer_fault (s : State) (x : Mixer) :
    (s.setMixer x).fault = s.fault := rfl
@[simp] theorem State.setMixer_pending (s : State) (x : Mixer) :
    (s.setMixer x).pending = s.pending := rfl

@[simp] theorem State.setLabel_path (s : State) (x : Label) :
    (s.setLabel x).path = s.path := rfl
@[simp] theorem State.setLabel_command (s : State) (x : Label) :
    (s.setLabel x).command = s.command := rfl
@[simp] theorem State.setLabel_report (s : State) (x : Label) :
    (s.setLabel x).report = s.report := rfl
@[simp] theorem State.setLabel_timing (s : State) (x : Label) :
    (s.setLabel x).timing = s.timing := rfl
@[simp] theorem State.setLabel_mixer (s : State) (x : Label) :
    (s.setLabel x).mixer = s.mixer := rfl
@[simp] theorem State.setLabel_label (s : State) (x : Label) :
    (s.setLabel x).label = x := rfl
@[simp] theorem State.setLabel_governor (s : State) (x : Label) :
    (s.setLabel x).governor = s.governor := rfl
@[simp] theorem State.setLabel_lines (s : State) (x : Label) :
    (s.setLabel x).lines = s.lines := rfl
@[simp] theorem State.setLabel_fault (s : State) (x : Label) :
    (s.setLabel x).fault = s.fault := rfl
@[simp] theorem State.setLabel_pending (s : State) (x : Label) :
    (s.setLabel x).pending = s.pending := rfl

@[simp] theorem State.setFault_path (s : State) (x : FaultUnit) :
    (s.setFault x).path = s.path := rfl
@[simp] theorem State.setFault_command (s : State) (x : FaultUnit) :
    (s.setFault x).command = s.command := rfl
@[simp] theorem State.setFault_report (s : State) (x : FaultUnit) :
    (s.setFault x).report = s.report := rfl
@[simp] theorem State.setFault_timing (s : State) (x : FaultUnit) :
    (s.setFault x).timing = s.timing := rfl
@[simp] theorem State.setFault_mixer (s : State) (x : FaultUnit) :
    (s.setFault x).mixer = s.mixer := rfl
@[simp] theorem State.setFault_label (s : State) (x : FaultUnit) :
    (s.setFault x).label = s.label := rfl
@[simp] theorem State.setFault_governor (s : State) (x : FaultUnit) :
    (s.setFault x).governor = s.governor := rfl
@[simp] theorem State.setFault_lines (s : State) (x : FaultUnit) :
    (s.setFault x).lines = s.lines := rfl
@[simp] theorem State.setFault_fault (s : State) (x : FaultUnit) :
    (s.setFault x).fault = x := rfl
@[simp] theorem State.setFault_pending (s : State) (x : FaultUnit) :
    (s.setFault x).pending = s.pending := rfl

@[simp] theorem State.setReference_path (s : State) (r : Ref) (x : Reference) :
    (s.setReference r x).path = s.path := rfl
@[simp] theorem State.setReference_command (s : State) (r : Ref) (x : Reference) :
    (s.setReference r x).command = s.command := rfl
@[simp] theorem State.setReference_report (s : State) (r : Ref) (x : Reference) :
    (s.setReference r x).report = s.report := rfl
@[simp] theorem State.setReference_timing (s : State) (r : Ref) (x : Reference) :
    (s.setReference r x).timing = s.timing.setReference r x := rfl
@[simp] theorem State.setReference_mixer (s : State) (r : Ref) (x : Reference) :
    (s.setReference r x).mixer = s.mixer := rfl
@[simp] theorem State.setReference_label (s : State) (r : Ref) (x : Reference) :
    (s.setReference r x).label = s.label := rfl
@[simp] theorem State.setReference_governor (s : State) (r : Ref) (x : Reference) :
    (s.setReference r x).governor = s.governor := rfl
@[simp] theorem State.setReference_lines (s : State) (r : Ref) (x : Reference) :
    (s.setReference r x).lines = s.lines := rfl
@[simp] theorem State.setReference_fault (s : State) (r : Ref) (x : Reference) :
    (s.setReference r x).fault = s.fault := rfl
@[simp] theorem State.setReference_pending (s : State) (r : Ref) (x : Reference) :
    (s.setReference r x).pending = s.pending := rfl

@[simp] theorem State.setReceiver_path (s : State) (l : LineId) (x : Receiver) :
    (s.setReceiver l x).path = s.path := rfl
@[simp] theorem State.setReceiver_command (s : State) (l : LineId) (x : Receiver) :
    (s.setReceiver l x).command = s.command := rfl
@[simp] theorem State.setReceiver_report (s : State) (l : LineId) (x : Receiver) :
    (s.setReceiver l x).report = s.report := rfl
@[simp] theorem State.setReceiver_timing (s : State) (l : LineId) (x : Receiver) :
    (s.setReceiver l x).timing = s.timing := rfl
@[simp] theorem State.setReceiver_mixer (s : State) (l : LineId) (x : Receiver) :
    (s.setReceiver l x).mixer = s.mixer := rfl
@[simp] theorem State.setReceiver_label (s : State) (l : LineId) (x : Receiver) :
    (s.setReceiver l x).label = s.label := rfl
@[simp] theorem State.setReceiver_governor (s : State) (l : LineId) (x : Receiver) :
    (s.setReceiver l x).governor = s.governor := rfl
@[simp] theorem State.setReceiver_lines (s : State) (l : LineId) (x : Receiver) :
    (s.setReceiver l x).lines = s.lines.set l { s.line l with receiver := x } := rfl
@[simp] theorem State.setReceiver_fault (s : State) (l : LineId) (x : Receiver) :
    (s.setReceiver l x).fault = s.fault := rfl
@[simp] theorem State.setReceiver_pending (s : State) (l : LineId) (x : Receiver) :
    (s.setReceiver l x).pending = s.pending := rfl

@[simp] theorem State.setList_path (s : State) (l : LineId) (x : SendList) :
    (s.setList l x).path = s.path := rfl
@[simp] theorem State.setList_command (s : State) (l : LineId) (x : SendList) :
    (s.setList l x).command = s.command := rfl
@[simp] theorem State.setList_report (s : State) (l : LineId) (x : SendList) :
    (s.setList l x).report = s.report := rfl
@[simp] theorem State.setList_timing (s : State) (l : LineId) (x : SendList) :
    (s.setList l x).timing = s.timing := rfl
@[simp] theorem State.setList_mixer (s : State) (l : LineId) (x : SendList) :
    (s.setList l x).mixer = s.mixer := rfl
@[simp] theorem State.setList_label (s : State) (l : LineId) (x : SendList) :
    (s.setList l x).label = s.label := rfl
@[simp] theorem State.setList_governor (s : State) (l : LineId) (x : SendList) :
    (s.setList l x).governor = s.governor := rfl
@[simp] theorem State.setList_lines (s : State) (l : LineId) (x : SendList) :
    (s.setList l x).lines = s.lines.set l { s.line l with list := x } := rfl
@[simp] theorem State.setList_fault (s : State) (l : LineId) (x : SendList) :
    (s.setList l x).fault = s.fault := rfl
@[simp] theorem State.setList_pending (s : State) (l : LineId) (x : SendList) :
    (s.setList l x).pending = s.pending := rfl

@[simp] theorem State.withPending_path (s : State) (q : List Instr) :
    (s.withPending q).path = s.path := rfl
@[simp] theorem State.withPending_command (s : State) (q : List Instr) :
    (s.withPending q).command = s.command := rfl
@[simp] theorem State.withPending_report (s : State) (q : List Instr) :
    (s.withPending q).report = s.report := rfl
@[simp] theorem State.withPending_timing (s : State) (q : List Instr) :
    (s.withPending q).timing = s.timing := rfl
@[simp] theorem State.withPending_mixer (s : State) (q : List Instr) :
    (s.withPending q).mixer = s.mixer := rfl
@[simp] theorem State.withPending_label (s : State) (q : List Instr) :
    (s.withPending q).label = s.label := rfl
@[simp] theorem State.withPending_governor (s : State) (q : List Instr) :
    (s.withPending q).governor = s.governor := rfl
@[simp] theorem State.withPending_lines (s : State) (q : List Instr) :
    (s.withPending q).lines = s.lines := rfl
@[simp] theorem State.withPending_fault (s : State) (q : List Instr) :
    (s.withPending q).fault = s.fault := rfl
@[simp] theorem State.withPending_pending (s : State) (q : List Instr) :
    (s.withPending q).pending = q := rfl

/-! ## Lines and streams -/

@[simp] theorem State.setLine_line_same (s : State) (l : LineId) (x : Line) : (s.setLine l x).line l = x := by
  simp [State.line]

theorem State.setLine_line_other (s : State) {l m : LineId} (x : Line) (h : m ≠ l) :
    (s.setLine l x).line m = s.line m := by
  have h' : ¬ (l : Nat) = m := fun e => h (Fin.ext e.symm)
  simp [State.line, h']

theorem State.setLine_line (s : State) (l m : LineId) (x : Line) :
    (s.setLine l x).line m = if m = l then x else s.line m := by
  by_cases h : m = l
  · subst h; simp
  · simp [h, s.setLine_line_other x h]

@[simp] theorem State.setLine_setLine (s : State) (l : LineId) (x y : Line) :
    (s.setLine l x).setLine l y = s.setLine l y := by
  simp [State.setLine]

@[simp] theorem State.setLine_line_eq (s : State) (l : LineId) : s.setLine l (s.line l) = s := by
  simp [State.setLine, State.line]

@[simp] theorem State.setStream_stream_same (s : State) (n : Fin 4) (x : Stream) :
    (s.setStream n x).stream n = x := by
  simp [State.stream]

theorem State.setStream_stream (s : State) (n m : Fin 4) (x : Stream) :
    (s.setStream n x).stream m = if m = n then x else s.stream m := by
  by_cases h : m = n
  · subst h; simp
  · have h' : ¬ (n : Nat) = m := fun e => h (Fin.ext e.symm)
    simp [State.stream, h, h']

@[simp] theorem State.setStream_setStream (s : State) (n : Fin 4) (x y : Stream) :
    (s.setStream n x).setStream n y = s.setStream n y := by
  simp [State.setStream]

@[simp] theorem State.setQueue_setQueue (s : State) (q : Fin 8) (x y : RequestQueue) :
    (s.setQueue q x).setQueue q y = s.setQueue q y := by
  simp [State.setQueue]

@[simp] theorem State.setReceiver_line_same (s : State) (l : LineId) (r : Receiver) :
    (s.setReceiver l r).line l = { s.line l with receiver := r } := by
  simp [State.setReceiver]

@[simp] theorem State.setList_line_same (s : State) (l : LineId) (x : SendList) :
    (s.setList l x).line l = { s.line l with list := x } := by
  simp [State.setList]

/-! ## Tables -/

@[simp] theorem mapTable_get {α β : Type} {n : Nat} (f : α → β) (v : Vector α n) (i : Fin n) :
    (mapTable f v)[i] = f v[i] := by
  simp [mapTable]

@[simp] theorem mapTable_getElem {α β : Type} {n : Nat} (f : α → β) (v : Vector α n) (i : Nat) (h : i < n) :
    (mapTable f v)[i] = f v[i] := by
  simp [mapTable]

end Sys2Proof.Machine
end

