-- ==== Sys2Proof/Laws/Frames.lean ====
section
/-! SUPPORT. What each operation can change: one frame lemma per operation. -/

set_option Elab.async false

namespace Sys2Proof.Machine

variable {ps qs : List Part} {s t u : State}

/-! ## Frames compose -/

theorem ChangesOnly.refl : ChangesOnly ps s s := by
  constructor
  intro p _; cases p <;> rfl

theorem ChangesOnly.trans (h : ChangesOnly ps s t) (k : ChangesOnly ps t u) : ChangesOnly ps s u := by
  constructor
  intro p hp
  have a := h.same p hp
  have b := k.same p hp
  cases p <;> exact Eq.trans b a

theorem ChangesOnly.mono (h : ChangesOnly ps s t) (sub : ps ⊆ qs) : ChangesOnly qs s t :=
  ⟨fun p hp => h.same p fun e => hp (sub e)⟩

/-- A first operation, then a second, within one frame. -/
theorem ChangesOnly.comp {rs : List Part} (h : ChangesOnly ps s t) (k : ChangesOnly qs t u)
    (hp : ps ⊆ rs := by decide) (hq : qs ⊆ rs := by decide) : ChangesOnly rs s u :=
  (h.mono hp).trans (k.mono hq)

/-- A last operation, after others within the frame. -/
theorem ChangesOnly.after (k : ChangesOnly qs t u) (h : ChangesOnly ps s t) (hq : qs ⊆ ps := by decide) :
    ChangesOnly ps s u :=
  h.trans (k.mono hq)

theorem ChangesOnly.ite {c : Prop} [Decidable c] (h : ChangesOnly ps s t) (k : ChangesOnly ps s u) :
    ChangesOnly ps s (if c then t else u) := by
  split
  · exact h
  · exact k

/-- An operation repeated over a list keeps the frame of one. -/
theorem ChangesOnly.foldl {α : Type} (f : State → α → State) (h : ∀ s a, ChangesOnly ps s (f s a))
    (l : List α) (s : State) : ChangesOnly ps s (l.foldl f s) := by
  induction l generalizing s with
  | nil => exact ChangesOnly.refl
  | cons a l ih => exact (h s a).trans (ih _)

theorem ChangesOnly.path (h :
    ChangesOnly ps s t) (hp : Part.path ∉ ps := by decide) : t.path = s.path := h.same .path hp
theorem ChangesOnly.command (h :
    ChangesOnly ps s t) (hp : Part.command ∉ ps := by decide) : t.command = s.command := h.same .command hp
theorem ChangesOnly.report (h :
    ChangesOnly ps s t) (hp : Part.report ∉ ps := by decide) : t.report = s.report := h.same .report hp
theorem ChangesOnly.timing (h :
    ChangesOnly ps s t) (hp : Part.timing ∉ ps := by decide) : t.timing = s.timing := h.same .timing hp
theorem ChangesOnly.mixer (h :
    ChangesOnly ps s t) (hp : Part.mixer ∉ ps := by decide) : t.mixer = s.mixer := h.same .mixer hp
theorem ChangesOnly.label (h :
    ChangesOnly ps s t) (hp : Part.label ∉ ps := by decide) : t.label = s.label := h.same .label hp
theorem ChangesOnly.governor (h :
    ChangesOnly ps s t) (hp : Part.governor ∉ ps := by decide) : t.governor = s.governor := h.same .governor hp
theorem ChangesOnly.lines (h :
    ChangesOnly ps s t) (hp : Part.lines ∉ ps := by decide) : t.lines = s.lines := h.same .lines hp
theorem ChangesOnly.fault (h :
    ChangesOnly ps s t) (hp : Part.fault ∉ ps := by decide) : t.fault = s.fault := h.same .fault hp
theorem ChangesOnly.pending (h :
    ChangesOnly ps s t) (hp : Part.pending ∉ ps := by decide) : t.pending = s.pending := h.same .pending hp

/-! ## The state updates -/

theorem State.setLine_changes (s : State) (l : LineId) (x : Line) :
    ChangesOnly [.lines] s (s.setLine l x) := by
  constructor; intro p hp; cases p <;> simp_all [Part.same]

theorem State.setStream_changes (s : State) (n : Fin 4) (x : Stream) :
    ChangesOnly [.governor] s (s.setStream n x) := by
  constructor; intro p hp; cases p <;> simp_all [Part.same]

theorem State.setQueue_changes (s : State) (q : Fin 8) (x : RequestQueue) :
    ChangesOnly [.path] s (s.setQueue q x) := by
  constructor; intro p hp; cases p <;> simp_all [Part.same]

theorem State.setPath_changes (s : State) (x : Path) : ChangesOnly [.path] s (s.setPath x) := by
  constructor; intro p hp; cases p <;> simp_all [Part.same]

theorem State.setMixer_changes (s : State) (x : Mixer) : ChangesOnly [.mixer] s (s.setMixer x) := by
  constructor; intro p hp; cases p <;> simp_all [Part.same]

theorem State.setLabel_changes (s : State) (x : Label) : ChangesOnly [.label] s (s.setLabel x) := by
  constructor; intro p hp; cases p <;> simp_all [Part.same]

theorem State.setFault_changes (s : State) (x : FaultUnit) : ChangesOnly [.fault] s (s.setFault x) := by
  constructor; intro p hp; cases p <;> simp_all [Part.same]

theorem State.setReference_changes (s : State) (r : Ref) (x : Reference) :
    ChangesOnly [.timing] s (s.setReference r x) := by
  constructor; intro p hp; cases p <;> simp_all [Part.same]

theorem State.setReceiver_changes (s : State) (l : LineId) (x : Receiver) :
    ChangesOnly [.lines] s (s.setReceiver l x) := by
  constructor; intro p hp; cases p <;> simp_all [Part.same]

theorem State.setList_changes (s : State) (l : LineId) (x : SendList) :
    ChangesOnly [.lines] s (s.setList l x) := by
  constructor; intro p hp; cases p <;> simp_all [Part.same]

/-! ## Shared operations -/

theorem offer_changes (object : Nat) (d : Detail) (s : State) :
    ChangesOnly [.report] s (offer object d s) := by
  unfold offer
  (repeat' split) <;> (constructor; intro p hp; cases p <;> simp_all [Part.same])

theorem raiseFault_changes (c : FaultClass) (a : FailAddress) (s : State) :
    ChangesOnly [.report, .fault] s (raiseFault c a s) := by
  unfold raiseFault
  split
  · exact (State.setFault_changes s _).comp (offer_changes ..)
  · exact ChangesOnly.refl

theorem setLockout_changes (n : Nat) (s : State) : ChangesOnly [.path] s (setLockout n s) := by
  constructor; intro p hp; cases p <;> simp_all [Part.same, setLockout]

theorem withdraw_changes (q : Fin 8) (s : State) : ChangesOnly [.path] s (withdraw q s) := by
  have h : ∀ t : State, ChangesOnly [.path] t (settleLockout t) := fun t => .ite .refl (setLockout_changes ..)
  exact (State.setQueue_changes ..).trans (h _)

theorem raiseFatal_changes (c : FatalCause) (s : State) : ChangesOnly [.path, .fault] s (raiseFatal c s) := by
  unfold raiseFatal
  split
  · refine (withdraw_changes ..).after ?_
    constructor; intro p hp; cases p <;> simp_all [Part.same]
  · constructor; intro p hp; cases p <;> simp_all [Part.same]

theorem strike_changes (x : Upset) (s : State) : ChangesOnly [.path, .mixer, .label] s (strike x s) := by
  cases x <;> unfold strike
  case accumulator => dsimp only; split <;> (constructor; intro p hp; cases p <;> simp_all [Part.same])
  all_goals (constructor; intro p hp; cases p <;> simp_all [Part.same])

theorem strikes_changes (us : List Upset) (s : State) :
    ChangesOnly [.path, .mixer, .label] s (strikes us s) := by
  exact ChangesOnly.foldl _ (fun s x => strike_changes x s) us s

theorem notePresented_changes (m : Made) (s : State) :
    ChangesOnly [.mixer, .fault] s (notePresented m s) := by
  unfold notePresented
  (repeat' split) <;> (constructor; intro p hp; cases p <;> simp_all [Part.same])

theorem presentNext_changes (q : Fin 8) (s : State) :
    ChangesOnly [.path, .mixer, .fault] s (presentNext q s) := by
  unfold presentNext
  dsimp only
  split
  · split
    · split
      · exact (State.setQueue_changes ..).comp (notePresented_changes ..)
      · exact (State.setQueue_changes ..).mono (by decide)
    · exact ChangesOnly.refl
  · exact ChangesOnly.refl

theorem makeRequest_changes (q : Fin 8) (m : Made) (s : State) :
    ChangesOnly [.path, .mixer, .fault] s (makeRequest q m s) := by
  unfold makeRequest
  split
  · exact (State.setQueue_changes ..).comp (presentNext_changes ..)
  · exact ChangesOnly.refl

theorem makeRequests_changes (q : Fin 8) (ms : List Made) (s : State) :
    ChangesOnly [.path, .mixer, .fault] s (makeRequests q ms s) := by
  exact ChangesOnly.foldl _ (fun s m => makeRequest_changes q m s) ms s

theorem freeTag_changes (k : Fin 32) (s : State) : ChangesOnly [.path] s (freeTag k s) := by
  unfold freeTag
  constructor; intro p hp; cases p <;> simp_all [Part.same]

theorem acceptResponse_changes (k : Fin 32) (i : Issued) (r : Response) (s : State) :
    ChangesOnly [.path, .report, .fault] s (acceptResponse k i r s) := by
  unfold acceptResponse
  dsimp only
  split
  · exact (freeTag_changes k s).mono (by decide)
  · exact (freeTag_changes k s).comp (raiseFault_changes ..)

theorem complete_changes (c : Completion) (result : Nat) (s : State) :
    ChangesOnly [.path, .command, .mixer, .fault] s (complete c result s) := by
  unfold complete
  split
  · constructor; intro p hp; cases p <;> simp_all [Part.same]
  · have h : ChangesOnly [.command] s
        { s with command := { s.command with state := .completing, handed := none, gather := none } } := by
      constructor; intro p hp; cases p <;> simp_all [Part.same]
    exact h.comp (makeRequest_changes ..)

/-! ## Timing -/

theorem videoBoundary_changes (c : BoundaryCause) (s : State) :
    ChangesOnly [.timing, .label, .governor] s (videoBoundary c s) := by
  unfold videoBoundary
  constructor; intro p hp; cases p <;> simp_all [Part.same]

theorem audioBoundary_changes (c : BoundaryCause) (s : State) :
    ChangesOnly [.timing, .mixer, .lines, .fault] s (audioBoundary c s) := by
  unfold audioBoundary
  constructor; intro p hp; cases p <;> simp_all [Part.same]

theorem boundary_changes (r : Ref) (c : BoundaryCause) (s : State) :
    ChangesOnly [.timing, .label, .governor, .mixer, .lines, .fault] s (boundary r c s) := by
  cases r
  · exact (videoBoundary_changes c s).mono (by decide)
  · exact (audioBoundary_changes c s).mono (by decide)

theorem referenceEvent_changes (r : Ref) (st : RefState) (s : State) :
    ChangesOnly [.report] s (referenceEvent r st s) := by
  exact offer_changes ..

theorem fillSlot_changes (i : Fin 7) (m : Option (MarkFunction × Fin 8)) (s : State) :
    ChangesOnly [.timing, .report] s (fillSlot i m s) := by
  unfold fillSlot
  dsimp only
  split
  · exact .refl
  split
  · refine ChangesOnly.comp (ps := [.timing]) ?_ (offer_changes ..)
    constructor; intro p hp; cases p <;> simp_all [Part.same]
  · constructor; intro p hp; cases p <;> simp_all [Part.same]

/-! ## The label unit -/

theorem setClip_changes (i : Fin 32) (c : Option Clip) (s : State) :
    ChangesOnly [.label] s (setClip i c s) := by
  exact State.setLabel_changes ..

theorem freeClip_changes (i : Fin 32) (s : State) : ChangesOnly [.label] s (freeClip i s) := by
  exact State.setLabel_changes ..

theorem dropBadClip_changes (i : Fin 32) (s : State) :
    ChangesOnly [.label, .report, .fault] s (dropBadClip i s) := by
  unfold dropBadClip
  exact ((freeClip_changes i s).trans (State.setLabel_changes ..)).comp (raiseFault_changes ..)

theorem readClips_changes (w : Clip → Bool) (s : State) :
    ChangesOnly [.label, .report, .fault] s (readClips w s) := by
  refine ChangesOnly.foldl _ (fun s i => ?_) _ s
  split
  · exact (dropBadClip_changes ..).ite .refl
  · exact ChangesOnly.refl

theorem updateClips_changes (w : Clip → Bool) (f : Clip → Clip) (s : State) :
    ChangesOnly [.label] s (updateClips w f s) := by
  exact State.setLabel_changes ..

theorem markPosted_changes (i : Fin 32) (f : Closing → Closing) (s : State) :
    ChangesOnly [.label] s (markPosted i f s) := by
  unfold markPosted
  split
  · exact (freeClip_changes ..).ite (setClip_changes ..)
  · exact ChangesOnly.refl

theorem uplinkOnce_changes (s : State) : ChangesOnly [.label, .report, .fault] s ((uplinkOnce s).1) := by
  unfold uplinkOnce
  split
  · exact .refl
  split
  · exact .refl
  split
  · exact dropBadClip_changes ..
  split
  · exact .refl
  split
  · split
    · exact ((State.setLabel_changes ..).trans (markPosted_changes ..)).mono (by decide)
    · exact .refl
  · exact (markPosted_changes ..).mono (by decide)

theorem ringOnce_changes (s : State) : ChangesOnly [.label, .report, .fault] s ((ringOnce s).1) := by
  unfold ringOnce
  split
  · exact .refl
  split
  · exact .refl
  split
  · exact dropBadClip_changes ..
  split
  · exact (markPosted_changes ..).mono (by decide)
  · exact .refl

/-- What holds of one decision holds of its repetition. -/
theorem settle_induction {motive : State → State → Prop} (once : State → State × Bool)
    (refl : ∀ s, motive s s) (step : ∀ s, motive s (once s).1)
    (trans : ∀ {s t u}, motive s t → motive t u → motive s u) (n : Nat) (s : State) :
    motive s (settle once n s) := by
  induction n generalizing s with
  | zero => exact refl s
  | succ n ih =>
    unfold settle
    have h := step s
    split
    · rename_i s' e
      rw [e] at h
      exact trans h (ih s')
    · rename_i s' e
      rw [e] at h
      exact h

theorem settle_changes (once : State → State × Bool) (h : ∀ s, ChangesOnly ps s (once s).1) (n : Nat)
    (s : State) : ChangesOnly ps s (settle once n s) :=
  settle_induction once (fun _ => .refl) h (fun a b => a.trans b) n s

theorem uplinkSettle_changes (s : State) : ChangesOnly [.label, .report, .fault] s (uplinkSettle s) := by
  exact .ite .refl (settle_changes _ uplinkOnce_changes ..)

theorem ringSettle_changes (s : State) : ChangesOnly [.label, .report, .fault] s (ringSettle s) := by
  exact .ite .refl (.ite .refl (settle_changes _ ringOnce_changes ..))

theorem ringGiveUp_changes (s : State) (i : Fin 32) :
    ChangesOnly [.label, .report, .fault] s (ringGiveUp s i) := by
  unfold ringGiveUp
  split
  · exact .refl
  · exact .ite (.ite (dropBadClip_changes ..) ((markPosted_changes ..).mono (by decide))) .refl

theorem ringGone_changes (s : State) : ChangesOnly [.label, .report, .fault] s (ringGone s) := by
  exact .ite .refl (.ite .refl (ChangesOnly.foldl _ ringGiveUp_changes ..))

theorem postSettle_changes (s : State) : ChangesOnly [.label, .report, .fault] s (postSettle s) := by
  exact (ringSettle_changes s).trans (uplinkSettle_changes _)

theorem frameCompletion_changes (k : Fin 8) (slot : Nat) (s : State) :
    ChangesOnly [.label] s (frameCompletion k slot s) := by
  exact State.setLabel_changes ..

theorem openClip_changes (i : Fin 32) (k : Fin 8) (m : Capture) (x : Option Count16) (b : VideoBoundary)
    (s : State) :
    ChangesOnly [.label] s (openClip i k m x b s) := by
  exact State.setLabel_changes ..

theorem closeClip_changes (i : Fin 32) (m : Capture) (s : State) :
    ChangesOnly [.label] s (closeClip i m s) := by
  unfold closeClip
  dsimp only
  split
  · exact State.setLabel_changes ..
  · exact .refl

theorem tryOpen_changes (k : Fin 8) (m : Capture) (x : Option Count16) (b : VideoBoundary) (s : State) :
    ChangesOnly [.label, .report] s (tryOpen k m x b s) := by
  unfold tryOpen
  split
  · exact (openClip_changes ..).mono (by decide)
  · exact (offer_changes ..).mono (by decide)

theorem markSplit_changes (k : Fin 8) (m : Capture) (b : VideoBoundary) (s : State) :
    ChangesOnly [.label, .report] s (markSplit k m b s) := by
  unfold markSplit
  split
  · exact (closeClip_changes ..).comp (tryOpen_changes ..)
  · exact tryOpen_changes ..

theorem applyMark_changes (f : MarkFunction) (k : Fin 8) (m : Capture) (b : VideoBoundary) (s : State) :
    ChangesOnly [.label, .report] s (applyMark f k m b s) := by
  have hin : ∀ s, ChangesOnly [.label, .report] s (markIn k m b s) := by
    intro s
    unfold markIn
    split
    · exact markSplit_changes ..
    · exact tryOpen_changes ..
  have hout : ∀ s, ChangesOnly [.label, .report] s (markOut k m s) := by
    intro s
    unfold markOut strayMark
    split
    · exact (closeClip_changes ..).mono (by decide)
    · exact (State.setLabel_changes ..).mono (by decide)
  have hgood : ∀ s, ChangesOnly [.label, .report] s (markGood k s) := by
    intro s
    unfold markGood strayMark
    (repeat' split) <;> exact (State.setLabel_changes ..).mono (by decide)
  cases f <;> unfold applyMark
  · exact .refl
  · exact hin s
  · exact hout s
  · dsimp only
    split
    · exact hout s
    · exact hin s
  · exact hgood s
  · exact markSplit_changes ..

theorem takeSlot_changes (b : VideoBoundary) (s : State) (i : Fin 7) :
    ChangesOnly [.label, .report, .timing] s (takeSlot b s i) := by
  unfold takeSlot
  split
  · have h : ChangesOnly [.timing] s
        { s with timing := { s.timing with slots := s.timing.slots.set i none } } := by
      constructor; intro p hp; cases p <;> simp_all [Part.same]
    dsimp only
    split
    · exact h.comp (applyMark_changes ..)
    · exact h.mono (by decide)
  · exact .refl

theorem countFrames_changes (s : State) : ChangesOnly [.label, .report, .fault] s (countFrames s) := by
  unfold countFrames
  exact (readClips_changes ..).trans
    (((updateClips_changes ..).trans (State.setLabel_changes ..)).mono (by decide))

theorem noteUnlocked_changes (b : VideoBoundary) (s : State) : ChangesOnly [.label] s (noteUnlocked b s) := by
  exact .ite .refl (updateClips_changes ..)

theorem applyLabels_changes (s : State) : ChangesOnly [.label, .timing] s (applyLabels s) := by
  unfold applyLabels
  split
  · exact .refl
  · constructor; intro p hp; cases p <;> simp_all [Part.same]

theorem labelBoundary_changes (b : VideoBoundary) (s : State) :
    ChangesOnly [.label, .report, .timing, .fault] s (labelBoundary b s) := by
  unfold labelBoundary
  dsimp only
  refine (postSettle_changes _).after ?_
  refine (State.setLabel_changes ..).after ?_
  refine (ChangesOnly.foldl _ (takeSlot_changes b) ..).after ?_
  refine (applyLabels_changes _).after ?_
  refine (noteUnlocked_changes ..).after ?_
  refine (postSettle_changes _).after ?_
  exact (countFrames_changes s).mono (by decide)

theorem peakOffer_changes (bus : Fin 16) (peak : Nat) (s : State) :
    ChangesOnly [.label, .report, .fault] s (peakOffer bus peak s) := by
  unfold peakOffer
  exact .ite .refl ((readClips_changes ..).trans ((updateClips_changes ..).mono (by decide)))

theorem pictureAdmitted_changes (n : Count32) (c : Option (Fin 8)) (s : State) :
    ChangesOnly [.label, .report, .fault] s (pictureAdmitted n c s) := by
  unfold pictureAdmitted
  split
  · exact .refl
  · exact (readClips_changes ..).trans ((updateClips_changes ..).mono (by decide))

theorem pictureDropped_changes (c : Option (Fin 8)) (s : State) :
    ChangesOnly [.label, .report, .fault] s (pictureDropped c s) := by
  unfold pictureDropped
  split
  · exact .refl
  · exact (readClips_changes ..).trans ((updateClips_changes ..).mono (by decide))

theorem ringDropBad_changes (s : State) : ChangesOnly [.label, .report, .fault] s ((ringDropBad s).1) := by
  unfold ringDropBad
  split
  · exact .refl
  · split
    · split
      · exact (dropBadClip_changes ..).trans (uplinkSettle_changes _)
      · exact .refl
    · exact .refl

theorem presentLabel_changes (s : State) :
    ChangesOnly [.label, .path, .mixer, .fault] s (presentLabel s) := by
  unfold presentLabel
  split
  · exact .refl
  · split
    · exact .refl
    · exact .ite ((State.setLabel_changes ..).comp (makeRequest_changes ..)) .refl

theorem labelLanded_changes (s : State) : ChangesOnly [.label, .report, .fault] s (labelLanded s) := by
  exact ((State.setLabel_changes ..).mono (by decide)).trans (postSettle_changes _)

theorem ringDone_changes (s : State) : ChangesOnly [.label, .report, .fault] s (ringDone s) := by
  unfold ringDone
  split
  · exact .ite (dropBadClip_changes ..) ((markPosted_changes ..).mono (by decide))
  · exact .refl
  · exact .refl

theorem labelReturned_changes (i : Issued) (r : Response) (s : State) :
    ChangesOnly [.label, .report, .fault, .path, .mixer] s (labelReturned i r s) := by
  unfold labelReturned
  refine .ite ((labelLanded_changes s).mono (by decide)) (.ite ?_ (.ite ?_ ?_))
  · exact ((ringDone_changes s).trans ((State.setLabel_changes ..).mono (by decide))).comp (labelLanded_changes _)
  · exact (makeRequest_changes ..).mono (by decide)
  · exact (ringDone_changes s).comp (labelLanded_changes _)

/-! ## The stream governor -/

theorem admitPicture_changes (n : Fin 4) (ring : Nat) (m : Marker) (s : State) :
    ChangesOnly [.label, .report, .fault, .governor] s (admitPicture n ring m s) := by
  unfold admitPicture
  exact (State.setStream_changes ..).comp (pictureAdmitted_changes ..)

theorem dropPicture_changes (n : Fin 4) (s : State) :
    ChangesOnly [.label, .report, .fault, .governor] s (dropPicture n s) := by
  unfold dropPicture
  dsimp only
  refine (pictureDropped_changes ..).after ?_
  refine (offer_changes ..).after ?_
  exact (State.setStream_changes ..).mono (by decide)

theorem markerWrite_changes (n : Fin 4) (ring : Nat) (a : BeatAddr) (b : Beat) (s : State) :
    ChangesOnly [.label, .report, .fault, .governor] s (markerWrite n ring a b s) := by
  unfold markerWrite
  dsimp only
  refine .ite ?_ ((raiseFault_changes ..).mono (by decide))
  refine .ite ?_ ?_
  · exact (State.setStream_changes ..).comp (admitPicture_changes ..)
  · exact (State.setStream_changes ..).comp (dropPicture_changes ..)

theorem payloadTap_changes (n : Fin 4) (ring : Nat) (written : List Nat) (s : State) :
    ChangesOnly [.report, .governor] s (payloadTap n ring written s) := by
  unfold payloadTap
  exact (State.setStream_changes ..).comp (ChangesOnly.foldl _ (fun _ _ => offer_changes ..) ..)

theorem endClaim_changes (n : Fin 4) (x : Bool) (s : State) :
    ChangesOnly [.governor] s ((endClaim n x s).1) := by
  unfold endClaim
  split
  · exact .refl
  · exact State.setStream_changes ..

theorem flushEvent_changes (n : Fin 4) (s : State) : ChangesOnly [.report] s (flushEvent n s) := by
  exact offer_changes ..

theorem changeEvent_changes (n : Fin 4) (s : State) : ChangesOnly [.report, .governor] s (changeEvent n s) := by
  have h : ChangesOnly [.governor] s
      { s with governor := { s.governor with changes := s.governor.changes + 1 } } :=
    ⟨fun p hp => by cases p <;> simp_all [Part.same]⟩
  exact h.comp (offer_changes ..)

theorem streamWindowChanged_changes (n : Fin 4) (x y : Option WindowEntry) (s : State) :
    ChangesOnly [.report, .governor] s (streamWindowChanged n x y s) := by
  have h : ChangesOnly [.report, .governor] s (changeEvent n (s.setStream n (s.stream n).flush)) :=
    (State.setStream_changes ..).comp (changeEvent_changes ..)
  unfold streamWindowChanged
  split
  · exact .refl
  · exact h
  · exact .ite .refl h

theorem setKeyRequest_changes (n : Fin 4) (s : State) : ChangesOnly [.governor] s (setKeyRequest n s) := by
  exact .ite .refl (State.setStream_changes ..)

/-! ## The mixer -/

theorem deliverReturn_changes (f : List Byte) (l : LineId) (s : State) :
    ChangesOnly [.mixer] s (deliverReturn f l s) := by
  unfold deliverReturn
  split
  · exact .refl
  · exact State.setMixer_changes ..

theorem mixerLos_changes (l : LineId) (s : State) : ChangesOnly [.mixer] s (mixerLos l s) := by
  unfold mixerLos
  split
  · exact .refl
  · exact State.setMixer_changes ..

theorem parityFaults_changes (f : MixFrame) (s : State) :
    ChangesOnly [.report, .fault] s (parityFaults f s) := by
  exact ChangesOnly.foldl _ (fun s b => .ite (raiseFault_changes ..) .refl) _ s

theorem updateMeters_changes (out : BusFrame) (s : State) : ChangesOnly [.mixer] s (updateMeters out s) := by
  exact State.setMixer_changes ..

theorem saturationEvent_changes (f : MixFrame) (s : State) :
    ChangesOnly [.report] s (saturationEvent f s) := by
  unfold saturationEvent
  dsimp only
  split
  · exact .refl
  · exact offer_changes ..

theorem underrunEvent_changes (f : MixFrame) (s : State) : ChangesOnly [.report] s (underrunEvent f s) := by
  unfold underrunEvent
  dsimp only
  split
  · exact .refl
  · exact offer_changes ..

theorem judgeSources_changes (f : MixFrame) (s : State) : ChangesOnly [.mixer] s (judgeSources f s) := by
  exact State.setMixer_changes ..

theorem queueOutput_changes (n : Count32) (out : BusFrame) (s : State) :
    ChangesOnly [.path, .report, .mixer, .fault] s (queueOutput n out s) := by
  unfold queueOutput
  split
  · exact .refl
  · exact .ite ((State.setMixer_changes ..).comp (makeRequests_changes ..)) ((raiseFault_changes ..).mono (by decide))

theorem holdFrame_changes (n : Count32) (out : BusFrame) (s : State) :
    ChangesOnly [.mixer, .lines] s (holdFrame n out s) := by
  unfold holdFrame
  constructor; intro p hp; cases p <;> simp_all [Part.same]

theorem offerPeaks_changes (out : BusFrame) (s : State) :
    ChangesOnly [.label, .report, .fault] s (offerPeaks out s) := by
  exact ChangesOnly.foldl _ (fun s b => peakOffer_changes ..) _ s

theorem closeFrame_changes (s : State) :
    ChangesOnly [.path, .report, .mixer, .label, .lines, .fault] s (closeFrame s) := by
  unfold closeFrame
  dsimp only
  refine (postSettle_changes _).after ?_
  refine (offerPeaks_changes ..).after ?_
  refine (holdFrame_changes ..).after ?_
  refine (queueOutput_changes ..).after ?_
  refine (judgeSources_changes ..).after ?_
  refine (underrunEvent_changes ..).after ?_
  refine (saturationEvent_changes ..).after ?_
  refine (updateMeters_changes ..).after ?_
  exact (parityFaults_changes ..).mono (by decide)

theorem mixerBoundary_changes (s : State) :
    ChangesOnly [.path, .report, .mixer, .label, .lines, .fault] s (mixerBoundary s) := by
  exact (closeFrame_changes s).comp (State.setMixer_changes ..)

theorem busWriteDone_changes (n : Count32) (s : State) : ChangesOnly [.mixer] s (busWriteDone n s) := by
  exact State.setMixer_changes ..

theorem dropBusWrites_changes (s : State) : ChangesOnly [.path, .mixer] s (dropBusWrites s) := by
  exact (State.setQueue_changes ..).comp (State.setMixer_changes ..)

/-! ## The receivers -/

theorem measureOffer_changes (l : LineId) (f : Totals → Totals) (s : State) :
    ChangesOnly [.fault] s (measureOffer l f s) := by
  exact .ite (State.setFault_changes ..) .refl

theorem giveLos_changes (l : LineId) (d : Bool) (s : State) : ChangesOnly [.fault] s (giveLos l d s) := by
  exact .ite (State.setFault_changes ..) .refl

theorem signalEvent_changes (l : LineId) (r : Receiver) (s : State) :
    ChangesOnly [.report] s (signalEvent l r s) := by
  exact .ite .refl (offer_changes ..)

theorem declareLos_changes (l : LineId) (s : State) :
    ChangesOnly [.report, .mixer, .lines, .fault] s (declareLos l s) := by
  unfold declareLos
  dsimp only
  refine (signalEvent_changes ..).after ?_
  split
  · exact (State.setReceiver_changes ..).mono (by decide)
  · refine (mixerLos_changes ..).after ?_
    refine (giveLos_changes ..).after ?_
    exact (State.setReceiver_changes ..).mono (by decide)

theorem ignoreFrame_changes (l : LineId) (s : State) : ChangesOnly [.lines] s (ignoreFrame l s) := by
  exact State.setReceiver_changes ..

theorem deliverFrame_changes (l : LineId) (f : List Byte) (s : State) :
    ChangesOnly [.mixer, .governor, .lines] s (deliverFrame l f s) := by
  unfold deliverFrame
  dsimp only
  split
  · exact .ite ((deliverReturn_changes ..).mono (by decide)) ((ignoreFrame_changes ..).mono (by decide))
  · exact (setKeyRequest_changes ..).mono (by decide)
  · exact (ignoreFrame_changes ..).mono (by decide)

theorem judgeCandidate_changes (l : LineId) (s : State) :
    ChangesOnly [.report, .mixer, .governor, .lines, .fault] s (judgeCandidate l s) := by
  unfold judgeCandidate goodOffer
  dsimp only
  split
  · split
    · refine (deliverFrame_changes ..).after ?_
      refine (signalEvent_changes ..).after ?_
      refine (measureOffer_changes ..).after ?_
      exact (State.setReceiver_changes ..).mono (by decide)
    · refine (signalEvent_changes ..).after ?_
      refine (measureOffer_changes ..).after ?_
      split
      · refine (giveLos_changes ..).after ?_
        exact (State.setReceiver_changes ..).mono (by decide)
      · exact (State.setReceiver_changes ..).mono (by decide)
  · exact (State.setReceiver_changes ..).mono (by decide)

theorem judgeLocked_changes (l : LineId) (s : State) :
    ChangesOnly [.report, .mixer, .governor, .lines, .fault] s (judgeLocked l s) := by
  unfold judgeLocked goodOffer
  dsimp only
  split
  · refine (deliverFrame_changes ..).after ?_
    refine (measureOffer_changes ..).after ?_
    exact (State.setReceiver_changes ..).mono (by decide)
  · split
    · refine (State.setReceiver_changes ..).after ?_
      exact (measureOffer_changes ..).mono (by decide)
    · refine (signalEvent_changes ..).after ?_
      refine (State.setReceiver_changes ..).after ?_
      exact (measureOffer_changes ..).mono (by decide)

/-! ## The lines -/

theorem startJob_changes (l : LineId) (n : Option (Fin 4)) (x y z : Nat) (rs : List MemRequest)
    (p : Nat → Nat → Purpose) (s : State) :
    ChangesOnly [.path, .mixer, .lines, .fault] s (startJob l n x y z rs p s) := by
  exact (State.setLine_changes ..).comp (makeRequests_changes ..)

theorem listError_changes (l : LineId) (a : Nat) (s : State) :
    ChangesOnly [.report, .lines] s (listError l a s) := by
  exact (offer_changes ..).comp (State.setList_changes ..)

theorem listDone_changes (l : LineId) (s : State) : ChangesOnly [.report, .lines] s (listDone l s) := by
  exact (offer_changes ..).comp (State.setList_changes ..)

theorem fetchDescriptor_changes (l : LineId) (s : State) :
    ChangesOnly [.path, .mixer, .lines, .fault] s (fetchDescriptor l s) := by
  exact (State.setLine_changes ..).comp (makeRequest_changes ..)

theorem descriptorReserved_changes (l : LineId) (d : Descriptor) (s : State) :
    ChangesOnly [.path, .report, .mixer, .lines, .fault] s (descriptorReserved l d s) := by
  unfold descriptorReserved
  dsimp only
  refine .ite ?_ (.ite ?_ ?_)
  · exact (State.setList_changes ..).mono (by decide)
  · exact (listError_changes ..).mono (by decide)
  · exact (State.setList_changes ..).comp (fetchDescriptor_changes ..)

theorem judgeDescriptor_changes (l : LineId) (r : Response) (s : State) :
    ChangesOnly [.path, .report, .mixer, .lines, .fault] s (judgeDescriptor l r s) := by
  unfold judgeDescriptor
  dsimp only
  refine .ite ?_ (.ite (.ite ?_ ?_) (.ite ?_ ?_))
  · exact (listError_changes ..).mono (by decide)
  · exact (State.setList_changes ..).comp (fetchDescriptor_changes ..)
  · exact (State.setList_changes ..).comp (offer_changes ..)
  · exact (State.setList_changes ..).mono (by decide)
  · exact (listError_changes ..).mono (by decide)

theorem descriptorReturned_changes (i : Issued) (r : Response) (s : State) :
    ChangesOnly [.path, .report, .mixer, .lines, .fault] s (descriptorReturned i r s) := by
  unfold descriptorReturned
  split
  · exact .ite ((State.setList_changes ..).comp (judgeDescriptor_changes ..)) .refl
  · exact .refl

theorem setNext_changes (l : LineId) (d : Decided) (s : State) : ChangesOnly [.lines] s (setNext l d s) := by
  exact State.setLine_changes ..

theorem decideLabel_changes (l : LineId) (s : State) :
    ChangesOnly [.report, .label, .lines, .fault] s (decideLabel l s) := by
  unfold decideLabel
  dsimp only
  refine (postSettle_changes _).after ?_
  refine (State.setLine_changes ..).after ?_
  exact (State.setLabel_changes ..).mono (by decide)

theorem decideSkip_changes (l : LineId) (n : Fin 4) (x : Notice) (xs : List Notice) (s : State) :
    ChangesOnly [.governor, .lines] s (decideSkip l n x xs s) := by
  exact (State.setStream_changes ..).comp (setNext_changes ..)

theorem decideLive_changes (l : LineId) (w : WindowEntry) (g : Grant) (x : Stream) (s : State) :
    ChangesOnly [.path, .mixer, .governor, .lines, .fault] s (decideLive l w g x s) := by
  unfold decideLive
  dsimp only
  refine (startJob_changes ..).after ?_
  refine (setNext_changes ..).after ?_
  exact (State.setStream_changes ..).mono (by decide)

theorem decideFile_changes (l : LineId) (d : Descriptor) (s : State) :
    ChangesOnly [.path, .report, .mixer, .lines, .fault] s (decideFile l d s) := by
  unfold decideFile
  dsimp only
  split
  · refine (descriptorReserved_changes ..).after ?_
    refine (startJob_changes ..).after ?_
    refine (setNext_changes ..).after ?_
    exact (State.setList_changes ..).mono (by decide)
  · refine (startJob_changes ..).after ?_
    refine (setNext_changes ..).after ?_
    exact (State.setList_changes ..).mono (by decide)

theorem decideFileOrFill_changes (l : LineId) (s : State) :
    ChangesOnly [.path, .report, .mixer, .lines, .fault] s (decideFileOrFill l s) := by
  unfold decideFileOrFill
  split
  · exact decideFile_changes ..
  · exact (setNext_changes ..).mono (by decide)

theorem decideStream_changes (l : LineId) (n : Fin 4) (s : State) :
    ChangesOnly [.path, .report, .mixer, .governor, .lines, .fault] s (decideStream l n s) := by
  unfold decideStream
  split
  · exact (decideSkip_changes ..).mono (by decide)
  · split
    · exact (decideLive_changes ..).mono (by decide)
    · exact (decideFileOrFill_changes ..).mono (by decide)

theorem decideFrame_changes (l : LineId) (s : State) :
    ChangesOnly [.path, .report, .mixer, .label, .governor, .lines, .fault] s (decideFrame l s) := by
  unfold decideFrame
  refine .ite ((decideLabel_changes ..).mono (by decide)) ?_
  split
  · exact (decideStream_changes ..).mono (by decide)
  · exact (decideFileOrFill_changes ..).mono (by decide)

theorem sendFrame_changes (l : LineId) (n : Count32) (d : Decided) (p : List Byte) (x : Bool) (s : State) :
    ChangesOnly [.lines, .fault] s (sendFrame l n d p x s) := by
  unfold sendFrame
  dsimp only
  refine (measureOffer_changes ..).after ?_
  exact (State.setLine_changes ..).mono (by decide)

theorem chooseFrame_changes (l : LineId) (n : Count32) (s : State) :
    ChangesOnly [.lines, .fault] s (chooseFrame l n s) := by
  unfold chooseFrame
  dsimp only
  split
  · refine (sendFrame_changes ..).after ?_
    exact (State.setLine_changes ..).mono (by decide)
  · split
    · exact sendFrame_changes ..
    · split
      · refine (sendFrame_changes ..).after ?_
        exact (State.setLine_changes ..).mono (by decide)
      · refine (sendFrame_changes ..).after ?_
        exact (State.setLine_changes ..).mono (by decide)
      · exact sendFrame_changes ..

theorem frameStart_changes (l : LineId) (n : Count32) (s : State) :
    ChangesOnly [.path, .report, .mixer, .label, .governor, .lines, .fault] s (frameStart l n s) := by
  unfold frameStart
  dsimp only
  split
  · exact (chooseFrame_changes ..).mono (by decide)
  · refine (decideFrame_changes ..).after ?_
    exact (chooseFrame_changes ..).mono (by decide)

theorem settleLine_changes (l : LineId) (s : State) : ChangesOnly [.lines] s (settleLine l s) := by
  exact State.setLine_changes ..

theorem functionChanged_changes (l : LineId) (o : LineOutcome) (s : State) :
    ChangesOnly [.report, .label, .lines, .fault] s (functionChanged l o s) := by
  unfold functionChanged
  refine (settleLine_changes ..).after ?_
  refine (postSettle_changes ..).after ?_
  exact (offer_changes ..).mono (by decide)

theorem enterHalted_changes (l : LineId) (s : State) :
    ChangesOnly [.report, .label, .lines, .fault] s (enterHalted l s) := by
  exact (State.setLine_changes ..).comp (functionChanged_changes ..)

theorem startLine_changes (l : LineId) (s : State) :
    ChangesOnly [.report, .label, .lines, .fault] s (startLine l s) := by
  exact (State.setLine_changes ..).comp (functionChanged_changes ..)

theorem haltLine_changes (l : LineId) (s : State) :
    ChangesOnly [.report, .label, .lines, .fault] s (haltLine l s) := by
  exact .ite ((State.setLine_changes ..).mono (by decide)) (enterHalted_changes ..)

theorem endTransmission_changes (l : LineId) (f : TxFrame) (s : State) :
    ChangesOnly [.report, .lines] s (endTransmission l f s) := by
  unfold endTransmission
  dsimp only
  split
  · refine (listDone_changes ..).after ?_
    exact (State.setLine_changes ..).mono (by decide)
  · exact (State.setLine_changes ..).mono (by decide)

theorem afterFrame_changes (l : LineId) (s : State) :
    ChangesOnly [.path, .report, .mixer, .label, .governor, .lines, .fault] s (afterFrame l s) := by
  unfold afterFrame
  dsimp only
  split
  · exact .ite .refl (frameStart_changes ..)
  · exact (enterHalted_changes ..).mono (by decide)
  · exact .refl
  · exact .refl

theorem applyLine_changes (l : LineId) (s : State) :
    ChangesOnly [.report, .mixer, .label, .lines, .fault] s (applyLine l s) := by
  unfold applyLine
  dsimp only
  split
  · exact .refl
  · refine (ChangesOnly.ite .refl (postSettle_changes ..)).after ?_
    split
    · refine (declareLos_changes ..).after ?_
      exact (State.setLine_changes ..).mono (by decide)
    · exact (State.setLine_changes ..).mono (by decide)

theorem lineBoundary_changes (l : LineId) (b : AudioBoundary) (s : State) :
    ChangesOnly [.path, .report, .mixer, .label, .governor, .lines, .fault] s (lineBoundary l b s) := by
  unfold lineBoundary
  dsimp only
  refine (settleLine_changes ..).after ?_
  split
  · refine (frameStart_changes ..).after ?_
    refine (State.setLine_changes ..).after ?_
    refine (State.setLine_changes ..).after ?_
    exact (applyLine_changes ..).mono (by decide)
  · refine (State.setLine_changes ..).after ?_
    exact (applyLine_changes ..).mono (by decide)

theorem payloadJobReturned_changes (l : LineId) (j : ReadJob) (s : State) :
    ChangesOnly [.governor, .lines] s (payloadJobReturned l j s) := by
  unfold payloadJobReturned
  dsimp only
  split
  · split
    · refine (State.setLine_changes ..).after ?_
      refine (endClaim_changes ..).after ?_
      exact (State.setLine_changes ..).mono (by decide)
    · exact (State.setLine_changes ..).mono (by decide)
  · exact (State.setLine_changes ..).mono (by decide)

theorem payloadReturned_changes (i : Issued) (r : Response) (s : State) :
    ChangesOnly [.governor, .lines] s (payloadReturned i r s) := by
  unfold payloadReturned
  split
  · refine .ite .refl ?_
    split
    · exact payloadJobReturned_changes ..
    · exact .refl
  · exact .refl

theorem fileJobReturned_changes (l : LineId) (j : ReadJob) (a : BeatAddr) (ok : Bool) (s : State) :
    ChangesOnly [.report, .lines] s (fileJobReturned l j a ok s) := by
  unfold fileJobReturned
  dsimp only
  split
  · split
    · refine (State.setLine_changes ..).after ?_
      exact (State.setLine_changes ..).mono (by decide)
    · exact (State.setLine_changes ..).mono (by decide)
  · split
    · refine (listError_changes ..).after ?_
      refine (State.setLine_changes ..).after ?_
      exact (State.setLine_changes ..).mono (by decide)
    · refine (State.setLine_changes ..).after ?_
      exact (State.setLine_changes ..).mono (by decide)

theorem fileReturned_changes (i : Issued) (r : Response) (s : State) :
    ChangesOnly [.report, .lines] s (fileReturned i r s) := by
  unfold fileReturned
  split
  · refine .ite .refl ?_
    split
    · exact fileJobReturned_changes ..
    · exact .refl
  · exact .refl

/-! ## Reports and commands -/

theorem presentPost_changes (r : Record) (s : State) :
    ChangesOnly [.report, .path, .mixer, .fault] s (presentPost r s) := by
  unfold presentPost
  refine (makeRequest_changes ..).after ?_
  constructor; intro p hp; cases p <;> simp_all [Part.same]

theorem postCancelled_changes (s : State) : ChangesOnly [.report] s (postCancelled s) := by
  unfold postCancelled
  constructor; intro p hp; cases p <;> simp_all [Part.same]

theorem postReturned_changes (i : Issued) (r : Response) (s : State) :
    ChangesOnly [.report, .path, .mixer, .fault] s (postReturned i r s) := by
  unfold postReturned
  split
  · exact (postCancelled_changes s).mono (by decide)
  · split
    · constructor; intro p hp; cases p <;> simp_all [Part.same]
    · split
      · exact (makeRequest_changes ..).mono (by decide)
      · constructor; intro p hp; cases p <;> simp_all [Part.same]

theorem fetchCommand_changes (s : State) :
    ChangesOnly [.command, .path, .mixer, .fault] s (fetchCommand s) := by
  unfold fetchCommand
  dsimp only
  split
  · refine (makeRequest_changes ..).after ?_
    constructor; intro p hp; cases p <;> simp_all [Part.same]
  · exact .refl

theorem takeProducer_changes (v : Count16) (s : State) :
    ChangesOnly [.command, .report, .fault] s (takeProducer v s) := by
  unfold takeProducer
  split
  · constructor; intro p hp; cases p <;> simp_all [Part.same]
  · refine (raiseFault_changes ..).after ?_
    constructor; intro p hp; cases p <;> simp_all [Part.same]

theorem recordReturned_changes (i : Issued) (r : Response) (s : State) :
    ChangesOnly [.path, .command, .mixer, .fault] s (recordReturned i r s) := by
  unfold recordReturned
  split
  · exact .refl
  · split
    · dsimp only
      split
      · constructor; intro p hp; cases p <;> simp_all [Part.same]
      · refine (complete_changes ..).after ?_
        constructor; intro p hp; cases p <;> simp_all [Part.same]
    · exact complete_changes ..

theorem finishCommand_changes (s : State) :
    ChangesOnly [.path, .command, .mixer, .fault] s (finishCommand s) := by
  unfold finishCommand
  dsimp only
  refine (fetchCommand_changes _).after ?_
  constructor; intro p hp; cases p <;> simp_all [Part.same]

theorem completionReturned_changes (i : Issued) (r : Response) (s : State) :
    ChangesOnly [.path, .command, .mixer, .fault] s (completionReturned i r s) := by
  unfold completionReturned
  split
  · exact .refl
  · split
    · exact (makeRequest_changes ..).mono (by decide)
    · exact finishCommand_changes s

theorem startGather_changes (g : Option (Fin 10)) (rs : List Made) (s : State) :
    ChangesOnly [.path, .command, .mixer, .fault] s (startGather g rs s) := by
  unfold startGather
  refine (makeRequests_changes ..).after ?_
  constructor; intro p hp; cases p <;> simp_all [Part.same]

/-! ## Settings -/

theorem stageGroup_changes (g : Fin 10) (bs : List Byte) (s : State) :
    ChangesOnly [.path, .command, .timing, .mixer, .label, .governor, .lines, .fault] s (stageGroup g bs s) := by
  have line : ∀ l, ChangesOnly [.path, .command, .timing, .mixer, .label, .governor, .lines, .fault] s
      (stageLine l bs s) := by
    intro l
    unfold stageLine
    split
    · exact (complete_changes ..).mono (by decide)
    · split
      · exact (complete_changes ..).mono (by decide)
      · refine (complete_changes ..).after ?_
        exact (State.setLine_changes ..).mono (by decide)
  have stream : ∀ n, ChangesOnly [.path, .command, .timing, .mixer, .label, .governor, .lines, .fault] s
      (stageStream n bs s) := by
    intro n
    unfold stageStream
    split
    · exact (complete_changes ..).mono (by decide)
    · refine (complete_changes ..).after ?_
      exact (State.setStream_changes ..).mono (by decide)
  unfold stageGroup
  split
  · unfold stageTiming
    split
    · exact (complete_changes ..).mono (by decide)
    · refine (complete_changes ..).after ?_
      constructor; intro p hp; cases p <;> simp_all [Part.same]
  · unfold stageLabels
    split
    · exact (complete_changes ..).mono (by decide)
    · refine (complete_changes ..).after ?_
      constructor; intro p hp; cases p <;> simp_all [Part.same]
  · exact stream 0
  · exact stream 1
  · exact stream 2
  · exact stream 3
  · exact line 0
  · exact line 1
  · exact line 2
  · unfold stageRoutes
    split
    · exact (complete_changes ..).mono (by decide)
    · refine (complete_changes ..).after ?_
      constructor; intro p hp; cases p <;> simp_all [Part.same]

theorem gathered_changes (ps : List Part) (hp : [.path, .command, .mixer, .fault] ⊆ ps) (index : Nat)
    (r : Response) (decided : Option (Fin 10) → List Byte → State → State)
    (h : ∀ g bs s, ChangesOnly ps s (decided g bs s)) (s : State) :
    ChangesOnly ps s (gathered index r decided s) := by
  unfold gathered
  split
  · exact .refl
  · split
    · exact .refl
    · dsimp only
      split
      · have k : ∀ g, ChangesOnly [.command] s
            { s with command := { s.command with gather := some g } } := by
          intro g; constructor; intro p hp; cases p <;> simp_all [Part.same]
        exact (k _).mono fun _ hx => hp (by simp_all)
      · split
        · exact (complete_changes ..).mono fun _ hx => hp (by simp_all)
        · exact h ..

theorem settingsReturned_changes (i : Issued) (r : Response) (s : State) :
    ChangesOnly [.path, .command, .timing, .mixer, .label, .governor, .lines, .fault] s (settingsReturned i r s) := by
  unfold settingsReturned
  split
  · refine gathered_changes _ (by decide) _ _ _ (fun g bs s => ?_) s
    unfold settingsGathered
    split
    · split
      · exact .refl
      · exact stageGroup_changes ..
    · exact .refl
  · exact .refl

/-! ## The measurement -/

theorem settleInterval_changes (s : State) (g : IntervalWrites) :
    ChangesOnly [.report] s (settleInterval s g) := by
  unfold settleInterval
  split
  · exact offer_changes ..
  · exact .refl

theorem settleIntervals_changes (s : State) : ChangesOnly [.report, .fault] s (settleIntervals s) := by
  unfold settleIntervals
  dsimp only
  refine (State.setFault_changes ..).after ?_
  exact (ChangesOnly.foldl _ settleInterval_changes ..).mono (by decide)

theorem blockDone_changes (n : Nat) (s : State) : ChangesOnly [.report, .fault] s (blockDone n s) := by
  unfold blockDone
  refine (settleIntervals_changes _).after ?_
  exact (State.setFault_changes ..).mono (by decide)

theorem blockCancelled_changes (n : Nat) (l : LineId) (x : Bool) (s : State) :
    ChangesOnly [.path, .report, .mixer, .fault] s (blockCancelled n l x s) := by
  unfold blockCancelled
  split
  · exact (makeRequest_changes ..).mono (by decide)
  · exact (blockDone_changes ..).mono (by decide)

theorem blockReturned_changes (i : Issued) (r : Response) (s : State) :
    ChangesOnly [.path, .report, .mixer, .fault] s (blockReturned i r s) := by
  unfold blockReturned
  split
  · split
    · exact (makeRequest_changes ..).mono (by decide)
    · exact (blockDone_changes ..).mono (by decide)
  · exact .refl

theorem timerBoundary_changes (b : AudioBoundary) (s : State) :
    ChangesOnly [.path, .mixer, .fault] s (timerBoundary b s) := by
  unfold timerBoundary
  split
  · exact .refl
  · exact (State.setFault_changes ..).mono (by decide)
  · unfold endIfReached
    dsimp only
    split
    · refine (makeRequests_changes ..).after ?_
      refine (State.setFault_changes ..).after ?_
      exact (State.setFault_changes ..).mono (by decide)
    · exact (State.setFault_changes ..).mono (by decide)

theorem dropBlockWrites_changes (s : State) : ChangesOnly [.path, .report, .fault] s (dropBlockWrites s) := by
  unfold dropBlockWrites
  dsimp only
  refine ChangesOnly.after (qs := [.report, .fault]) (ChangesOnly.foldl _ (fun s m => ?_) _ _) ?_
  · split
    · exact blockDone_changes ..
    · exact .refl
  · exact (State.setQueue_changes ..).mono (by decide)

/-! ## Windows -/

theorem markStale_changes (w : Purpose → Bool) (s : State) : ChangesOnly [.path] s (markStale w s) := by
  unfold markStale
  constructor; intro p hp; cases p <;> simp_all [Part.same]

theorem faultReaction_changes (old s : State) :
    ChangesOnly [.path, .report, .fault] s (faultReaction old s) := by
  unfold faultReaction measWindowGone measWindowMoved
  split
  · exact .refl
  split
  · exact .refl
  split
  · exact (State.setQueue_changes ..).mono (by decide)
  · refine (dropBlockWrites_changes _).after ?_
    exact (State.setFault_changes ..).mono (by decide)

theorem reportReaction_changes (old s : State) : ChangesOnly [.path, .report] s (reportReaction old s) := by
  unfold reportReaction reportWindowChanged
  split
  · exact .refl
  split
  · exact .refl
  · refine (markStale_changes ..).after ?_
    constructor; intro p hp; cases p <;> simp_all [Part.same]

theorem governorReaction_changes (old s : State) :
    ChangesOnly [.report, .governor] s (governorReaction old s) := by
  exact .ite .refl (ChangesOnly.foldl _ (fun _ _ => streamWindowChanged_changes ..) ..)

theorem labelReaction_changes (old s : State) :
    ChangesOnly [.path, .label, .report, .fault] s (labelReaction old s) := by
  unfold labelReaction labelWindowChanged stopWaitingLabel
  split
  · exact .refl
  split
  · exact .refl
  · refine (postSettle_changes _).after ?_
    refine (ringGone_changes _).after ?_
    refine (State.setQueue_changes ..).after ?_
    refine (markStale_changes ..).after ?_
    exact (State.setLabel_changes ..).mono (by decide)

theorem mixerReaction_changes (s : State) : ChangesOnly [.path, .mixer] s (mixerReaction s) := by
  unfold mixerReaction
  split
  · exact .refl
  split
  · exact .refl
  · exact dropBusWrites_changes _

theorem applyTable_changes (t : Vector WindowEntry 16) (s : State) :
    ChangesOnly [.path, .report, .mixer, .label, .governor, .fault] s (applyTable t s) := by
  unfold applyTable
  dsimp only
  refine (faultReaction_changes ..).after ?_
  refine (reportReaction_changes ..).after ?_
  refine (governorReaction_changes ..).after ?_
  refine (labelReaction_changes ..).after ?_
  refine (mixerReaction_changes _).after ?_
  constructor; intro p hp; cases p <;> simp_all [Part.same]

theorem tableReturned_changes (i : Issued) (r : Response) (s : State) :
    ChangesOnly [.path, .command, .report, .mixer, .label, .governor, .fault] s (tableReturned i r s) := by
  unfold tableReturned
  split
  · split
    · exact .refl
    · refine gathered_changes _ (by decide) _ _ _ (fun g bs s => ?_) s
      unfold tableGathered
      dsimp only
      split
      · exact (complete_changes ..).mono (by decide)
      · refine (complete_changes ..).after ?_
        exact (applyTable_changes ..).mono (by decide)
  · exact .refl

/-! ## The path unit -/

theorem forwardRequest_changes (r : Request) (s : State) : ChangesOnly [.path] s (forwardRequest r s) := by
  exact State.setPath_changes ..

theorem interceptRead_changes (r : Request) (b : List Word) (s : State) :
    ChangesOnly [.path] s (interceptRead r b s) := by
  exact State.setPath_changes ..

theorem passThrough_changes (r : Request) (s : State) : ChangesOnly [.path] s (passThrough r s) := by
  unfold passThrough
  split
  · split
    · exact forwardRequest_changes ..
    · exact interceptRead_changes ..
  · exact forwardRequest_changes ..

theorem handSnoop_changes (f : Snooped) (v : Count16) (s : State) :
    ChangesOnly [.command, .report, .label, .mixer] s (handSnoop f v s) := by
  cases f <;> (constructor; intro p hp; cases p <;> simp_all [Part.same, handSnoop])

theorem snoopBeat_changes (page offset : Nat) (b : Beat) (s : State) :
    ChangesOnly [.command, .report, .label, .mixer, .fault] s (snoopBeat page offset b s) := by
  unfold snoopBeat
  split
  · exact .refl
  · split
    · exact (handSnoop_changes ..).mono (by decide)
    · exact .refl
    · exact (raiseFault_changes ..).mono (by decide)

theorem snoopBeats_changes (page offset : Nat) (bs : List Beat) (s : State) :
    ChangesOnly [.command, .report, .label, .mixer, .fault] s (snoopBeats page offset bs s) := by
  induction bs generalizing offset s with
  | nil => exact .refl
  | cons b bs ih =>
    unfold snoopBeats
    exact (snoopBeat_changes ..).trans (ih ..)

theorem codedTap_changes (w : WindowEntry) (r : Request) (o : Nat) (bs : List Beat) (s : State) :
    ChangesOnly [.label, .report, .fault, .governor] s (codedTap w r o bs s) := by
  unfold codedTap
  split
  · split
    · exact (payloadTap_changes ..).mono (by decide)
    · split
      · split
        · exact markerWrite_changes ..
        · exact .refl
      · exact .refl
  · exact .refl

theorem windowWrite_changes (w : WindowEntry) (r : Request) (bs : List Beat) (s : State) :
    ChangesOnly [.path, .report, .mixer, .label, .governor, .fault] s (windowWrite w r bs s) := by
  unfold windowWrite
  dsimp only
  split
  · exact (forwardRequest_changes ..).mono (by decide)
  · refine (State.setMixer_changes ..).after ?_
    exact (forwardRequest_changes ..).mono (by decide)
  · unfold pictureTap
    dsimp only
    split
    · split
      · refine (frameCompletion_changes ..).after ?_
        exact (forwardRequest_changes ..).mono (by decide)
      · exact (forwardRequest_changes ..).mono (by decide)
    · exact (forwardRequest_changes ..).mono (by decide)
  · refine (codedTap_changes ..).after ?_
    exact (forwardRequest_changes ..).mono (by decide)
  all_goals
    refine (raiseFault_changes ..).after ?_
    exact (forwardRequest_changes ..).mono (by decide)

theorem windowRead_changes (w : WindowEntry) (r : Request) (n : Nat) (s : State) :
    ChangesOnly [.path] s (windowRead w r n s) := by
  unfold windowRead
  dsimp only
  split
  · split
    · exact interceptRead_changes ..
    · exact forwardRequest_changes ..
  · exact forwardRequest_changes ..

theorem classify_changes (r : Request) (s : State) :
    ChangesOnly [.path, .command, .report, .mixer, .label, .governor, .fault] s (classify r s) := by
  unfold classify
  split
  · refine (raiseFault_changes ..).after ?_
    exact (forwardRequest_changes ..).mono (by decide)
  · split
    · unfold controlPageRequest
      split
      · split
        · exact (interceptRead_changes ..).mono (by decide)
        · exact (forwardRequest_changes ..).mono (by decide)
      · refine (snoopBeats_changes ..).after ?_
        exact (forwardRequest_changes ..).mono (by decide)
    · unfold classifyWindow
      split
      · exact (forwardRequest_changes ..).mono (by decide)
      · split
        · exact (windowRead_changes ..).mono (by decide)
        · exact (windowWrite_changes ..).mono (by decide)

theorem arrive_changes (r : Request) (s : State) :
    ChangesOnly [.path, .command, .report, .mixer, .label, .governor, .fault] s (arrive r s) := by
  unfold arrive
  split
  · refine (passThrough_changes ..).after ?_
    exact (raiseFatal_changes ..).mono (by decide)
  · split
    · split
      · exact classify_changes ..
      · refine (passThrough_changes ..).after ?_
        exact (raiseFatal_changes ..).mono (by decide)
    · exact (passThrough_changes ..).mono (by decide)

theorem cancelled_changes (p : Purpose) (s : State) :
    ChangesOnly [.path, .command, .report, .mixer, .label, .fault] s (cancelled p s) := by
  unfold cancelled
  split
  · exact (postCancelled_changes s).mono (by decide)
  · exact (busWriteDone_changes ..).mono (by decide)
  · exact (labelLanded_changes s).mono (by decide)
  · exact (blockCancelled_changes ..).mono (by decide)
  · exact (finishCommand_changes s).mono (by decide)
  all_goals exact .refl

theorem passTurn_changes (q : Fin 8) (s : State) : ChangesOnly [.path] s (passTurn q s) := by
  unfold passTurn
  exact (State.setQueue_changes ..).trans (State.setPath_changes ..)

theorem issue_changes (q : Fin 8) (k : Fin 32) (w : Waiting) (s : State) :
    ChangesOnly [.path, .mixer, .fault] s (issue q k w s) := by
  unfold issue
  dsimp only
  refine (presentNext_changes ..).after ?_
  refine (State.setPath_changes ..).after ?_
  exact (passTurn_changes ..).mono (by decide)

theorem cancelWaiting_changes (q : Fin 8) (w : Waiting) (s : State) :
    ChangesOnly [.path, .command, .report, .mixer, .label, .fault] s (cancelWaiting q w s) := by
  unfold cancelWaiting
  refine (presentNext_changes ..).after ?_
  refine (cancelled_changes ..).after ?_
  exact (passTurn_changes ..).mono (by decide)

theorem grantInternal_changes (q : Fin 8) (pick : BitVec 5) (s : State) :
    ChangesOnly [.path, .command, .report, .mixer, .label, .fault] s ((grantInternal q pick s).1) := by
  unfold grantInternal
  split
  · split
    · exact (issue_changes ..).mono (by decide)
    · exact cancelWaiting_changes ..
  · exact .refl

theorem grantForwarded_changes (r : Request) (rest : List Request) (s : State) :
    ChangesOnly [.path] s (grantForwarded r rest s) := by
  exact State.setPath_changes ..

theorem arbitrate_changes (pick : BitVec 5) (n : Nat) (s : State) :
    ChangesOnly [.path, .command, .report, .mixer, .label, .fault] s (arbitrate pick n s) := by
  have granted : ∀ q s s' b, grantInternal q pick s = (s', b) →
      ChangesOnly [.path, .command, .report, .mixer, .label, .fault] s s' := by
    intro q s s' b e
    have h := grantInternal_changes q pick s
    rwa [e] at h
  induction n generalizing s with
  | zero => exact .refl
  | succ n ih =>
    unfold arbitrate
    split
    · split
      · split
        · rename_i e
          exact (granted _ _ _ _ e).trans (ih _)
        · rename_i e
          exact granted _ _ _ _ e
      · refine (setLockout_changes ..).after ?_
        exact (grantForwarded_changes ..).mono (by decide)
    · split
      · rename_i e
        exact (granted _ _ _ _ e).trans (ih _)
      · rename_i e
        exact granted _ _ _ _ e
    · refine (setLockout_changes ..).after ?_
      exact (grantForwarded_changes ..).mono (by decide)
    · exact (setLockout_changes ..).mono (by decide)

theorem forwardedReturned_changes (k : Fin 64) (r : Response) (s : State) :
    ChangesOnly [.path, .report, .fault] s (forwardedReturned k r s) := by
  unfold forwardedReturned
  dsimp only
  split
  · exact (raiseFatal_changes ..).mono (by decide)
  · split
    · exact (State.setPath_changes ..).mono (by decide)
    · refine (raiseFault_changes ..).after ?_
      exact (State.setPath_changes ..).mono (by decide)

end Sys2Proof.Machine
end

