-- ==== Sys2Proof/Laws/Lines.lean ====
section
/-! SUPPORT. The operations of one line leave the other lines as they are. -/

set_option Elab.async false

namespace Sys2Proof.Machine

variable {l : LineId} {s t u : State} {ps : List Part}

theorem OtherLinesSame.refl : OtherLinesSame l s s := ⟨fun _ _ => rfl⟩

theorem OtherLinesSame.trans (h : OtherLinesSame l s t) (k : OtherLinesSame l t u) : OtherLinesSame l s u :=
  ⟨fun m hm => (k.same m hm).trans (h.same m hm)⟩

/-- A last operation, after others. -/
theorem OtherLinesSame.after (k : OtherLinesSame l t u) (h : OtherLinesSame l s t) : OtherLinesSame l s u :=
  h.trans k

theorem OtherLinesSame.of_changes (h : ChangesOnly ps s t) (hp : Part.lines ∉ ps := by decide) :
    OtherLinesSame l s t :=
  ⟨fun m _ => by rw [State.line, State.line, h.lines hp]⟩

theorem setLine_others (l : LineId) (x : Line) (s : State) : OtherLinesSame l s (s.setLine l x) := by
  exact ⟨fun _ hm => State.setLine_line_other s x hm⟩

theorem setReceiver_others (l : LineId) (r : Receiver) (s : State) :
    OtherLinesSame l s (s.setReceiver l r) := by
  exact setLine_others ..

theorem setList_others (l : LineId) (x : SendList) (s : State) : OtherLinesSame l s (s.setList l x) := by
  exact setLine_others ..

theorem startJob_others (l : LineId) (n : Option (Fin 4)) (x y z : Nat) (rs : List MemRequest)
    (p : Nat → Nat → Purpose) (s : State) :
    OtherLinesSame l s (startJob l n x y z rs p s) := by
  unfold startJob
  exact OtherLinesSame.after (.of_changes (makeRequests_changes ..)) (setLine_others ..)

theorem listError_others (l : LineId) (a : Nat) (s : State) : OtherLinesSame l s (listError l a s) := by
  unfold listError
  exact (setList_others ..).after (.of_changes (offer_changes ..))

theorem listDone_others (l : LineId) (s : State) : OtherLinesSame l s (listDone l s) := by
  unfold listDone
  exact (setList_others ..).after (.of_changes (offer_changes ..))

theorem fetchDescriptor_others (l : LineId) (s : State) : OtherLinesSame l s (fetchDescriptor l s) := by
  unfold fetchDescriptor
  exact OtherLinesSame.after (.of_changes (makeRequest_changes ..)) (setLine_others ..)

theorem descriptorReserved_others (l : LineId) (d : Descriptor) (s : State) :
    OtherLinesSame l s (descriptorReserved l d s) := by
  unfold descriptorReserved
  dsimp only
  split
  · exact setList_others ..
  · split
    · exact listError_others ..
    · exact (fetchDescriptor_others ..).after (setList_others ..)

theorem judgeDescriptor_others (l : LineId) (r : Response) (s : State) :
    OtherLinesSame l s (judgeDescriptor l r s) := by
  unfold judgeDescriptor
  dsimp only
  split
  · exact listError_others ..
  · split
    · split
      · exact (fetchDescriptor_others ..).after (setList_others ..)
      · exact OtherLinesSame.after (.of_changes (offer_changes ..)) (setList_others ..)
    · split
      · exact setList_others ..
      · exact listError_others ..

theorem setNext_others (l : LineId) (d : Decided) (s : State) : OtherLinesSame l s (setNext l d s) := by
  exact setLine_others ..

theorem decideLabel_others (l : LineId) (s : State) : OtherLinesSame l s (decideLabel l s) := by
  unfold decideLabel
  dsimp only
  refine OtherLinesSame.after (.of_changes (postSettle_changes _)) ?_
  exact (setLine_others ..).after (.of_changes (State.setLabel_changes ..))

theorem decideSkip_others (l : LineId) (n : Fin 4) (x : Notice) (xs : List Notice) (s : State) :
    OtherLinesSame l s (decideSkip l n x xs s) := by
  unfold decideSkip
  exact (setNext_others ..).after (.of_changes (State.setStream_changes ..))

theorem decideLive_others (l : LineId) (w : WindowEntry) (g : Grant) (x : Stream) (s : State) :
    OtherLinesSame l s (decideLive l w g x s) := by
  unfold decideLive
  dsimp only
  refine (startJob_others ..).after ((setNext_others ..).after ?_)
  exact .of_changes (State.setStream_changes ..)

theorem decideFile_others (l : LineId) (d : Descriptor) (s : State) :
    OtherLinesSame l s (decideFile l d s) := by
  unfold decideFile
  dsimp only
  split
  · refine (descriptorReserved_others ..).after ((startJob_others ..).after ?_)
    exact (setNext_others ..).after (setList_others ..)
  · refine (startJob_others ..).after ?_
    exact (setNext_others ..).after (setList_others ..)

theorem decideFileOrFill_others (l : LineId) (s : State) : OtherLinesSame l s (decideFileOrFill l s) := by
  unfold decideFileOrFill
  split
  · exact decideFile_others ..
  · exact setNext_others ..

theorem decideFrame_others (l : LineId) (s : State) : OtherLinesSame l s (decideFrame l s) := by
  unfold decideFrame
  split
  · exact decideLabel_others ..
  · split
    · unfold decideStream
      split
      · exact decideSkip_others ..
      · split
        · exact decideLive_others ..
        · exact decideFileOrFill_others ..
    · exact decideFileOrFill_others ..

theorem sendFrame_others (l : LineId) (n : Count32) (d : Decided) (p : List Byte) (x : Bool) (s : State) :
    OtherLinesSame l s (sendFrame l n d p x s) := by
  unfold sendFrame
  dsimp only
  exact OtherLinesSame.after (.of_changes (measureOffer_changes ..)) (setLine_others ..)

theorem chooseFrame_others (l : LineId) (n : Count32) (s : State) : OtherLinesSame l s (chooseFrame l n s) := by
  unfold chooseFrame
  dsimp only
  split
  · exact (sendFrame_others ..).after (setLine_others ..)
  · split
    · exact sendFrame_others ..
    · split
      · exact (sendFrame_others ..).after (setLine_others ..)
      · exact (sendFrame_others ..).after (setLine_others ..)
      · exact sendFrame_others ..

theorem frameStart_others (l : LineId) (n : Count32) (s : State) : OtherLinesSame l s (frameStart l n s) := by
  unfold frameStart
  dsimp only
  split
  · exact chooseFrame_others ..
  · exact (decideFrame_others ..).after (chooseFrame_others ..)

theorem settleLine_others (l : LineId) (s : State) : OtherLinesSame l s (settleLine l s) := by
  exact setLine_others ..

theorem functionChanged_others (l : LineId) (o : LineOutcome) (s : State) :
    OtherLinesSame l s (functionChanged l o s) := by
  unfold functionChanged
  refine (settleLine_others ..).after ?_
  exact OtherLinesSame.after (.of_changes (postSettle_changes ..)) (.of_changes (offer_changes ..))

theorem enterHalted_others (l : LineId) (s : State) : OtherLinesSame l s (enterHalted l s) := by
  exact (functionChanged_others ..).after (setLine_others ..)

theorem startLine_others (l : LineId) (s : State) : OtherLinesSame l s (startLine l s) := by
  exact (functionChanged_others ..).after (setLine_others ..)

theorem endTransmission_others (l : LineId) (f : TxFrame) (s : State) :
    OtherLinesSame l s (endTransmission l f s) := by
  unfold endTransmission
  dsimp only
  split
  · exact (listDone_others ..).after (setLine_others ..)
  · exact setLine_others ..

theorem afterFrame_others (l : LineId) (s : State) : OtherLinesSame l s (afterFrame l s) := by
  unfold afterFrame
  dsimp only
  split
  · split
    · exact .refl
    · exact frameStart_others ..
  · exact enterHalted_others ..
  · exact .refl
  · exact .refl

theorem declareLos_others (l : LineId) (s : State) : OtherLinesSame l s (declareLos l s) := by
  unfold declareLos
  dsimp only
  refine OtherLinesSame.after (.of_changes (signalEvent_changes ..)) ?_
  split
  · exact setReceiver_others ..
  · refine OtherLinesSame.after (.of_changes (mixerLos_changes ..)) ?_
    exact OtherLinesSame.after (.of_changes (giveLos_changes ..)) (setReceiver_others ..)

theorem applyLine_others (l : LineId) (s : State) : OtherLinesSame l s (applyLine l s) := by
  unfold applyLine
  dsimp only
  split
  · exact .refl
  · refine OtherLinesSame.after (.of_changes (.ite .refl (postSettle_changes ..))) ?_
    split
    · exact (declareLos_others ..).after (setLine_others ..)
    · exact setLine_others ..

theorem lineBoundary_others (l : LineId) (b : AudioBoundary) (s : State) :
    OtherLinesSame l s (lineBoundary l b s) := by
  unfold lineBoundary
  dsimp only
  refine (settleLine_others ..).after ?_
  split
  · refine (frameStart_others ..).after ((setLine_others ..).after ?_)
    exact (setLine_others ..).after (applyLine_others ..)
  · exact (setLine_others ..).after (applyLine_others ..)

theorem payloadJobReturned_others (l : LineId) (j : ReadJob) (s : State) :
    OtherLinesSame l s (payloadJobReturned l j s) := by
  unfold payloadJobReturned
  dsimp only
  split
  · split
    · refine (setLine_others ..).after ?_
      exact OtherLinesSame.after (.of_changes (endClaim_changes ..)) (setLine_others ..)
    · exact setLine_others ..
  · exact setLine_others ..

theorem fileJobReturned_others (l : LineId) (j : ReadJob) (a : BeatAddr) (ok : Bool) (s : State) :
    OtherLinesSame l s (fileJobReturned l j a ok s) := by
  unfold fileJobReturned
  dsimp only
  split
  · split
    · exact (setLine_others ..).after (setLine_others ..)
    · exact setLine_others ..
  · split
    · exact (listError_others ..).after ((setLine_others ..).after (setLine_others ..))
    · exact (setLine_others ..).after (setLine_others ..)

theorem deliverFrame_others (l : LineId) (f : List Byte) (s : State) :
    OtherLinesSame l s (deliverFrame l f s) := by
  unfold deliverFrame ignoreFrame
  dsimp only
  split
  · split
    · exact .of_changes (deliverReturn_changes ..)
    · exact setReceiver_others ..
  · exact .of_changes (setKeyRequest_changes ..)
  · exact setReceiver_others ..

theorem judgeCandidate_others (l : LineId) (s : State) : OtherLinesSame l s (judgeCandidate l s) := by
  unfold judgeCandidate goodOffer
  dsimp only
  split
  · split
    · refine (deliverFrame_others ..).after ?_
      refine OtherLinesSame.after (.of_changes (signalEvent_changes ..)) ?_
      exact OtherLinesSame.after (.of_changes (measureOffer_changes ..)) (setReceiver_others ..)
    · refine OtherLinesSame.after (.of_changes (signalEvent_changes ..)) ?_
      refine OtherLinesSame.after (.of_changes (measureOffer_changes ..)) ?_
      split
      · exact OtherLinesSame.after (.of_changes (giveLos_changes ..)) (setReceiver_others ..)
      · exact setReceiver_others ..
  · exact setReceiver_others ..

theorem judgeLocked_others (l : LineId) (s : State) : OtherLinesSame l s (judgeLocked l s) := by
  unfold judgeLocked goodOffer
  dsimp only
  split
  · refine (deliverFrame_others ..).after ?_
    exact OtherLinesSame.after (.of_changes (measureOffer_changes ..)) (setReceiver_others ..)
  · split
    · exact (setReceiver_others ..).after (.of_changes (measureOffer_changes ..))
    · refine OtherLinesSame.after (.of_changes (signalEvent_changes ..)) ?_
      exact (setReceiver_others ..).after (.of_changes (measureOffer_changes ..))

end Sys2Proof.Machine
end

