-- ==== Sys2Proof/Laws/Ops.lean ====
section
/-! SUPPORT. What the shared operations do: one lemma for each, to cite in place of unfolding it. -/

set_option Elab.async false

namespace Sys2Proof.Machine

variable {s : State}

/-! ## The mode -/

theorem isNormal_iff : s.isNormal = true ↔ s.fault.mode = .normal := by
  simp [State.isNormal]

theorem isNormal_false_iff : s.isNormal = false ↔ s.fault.mode = .passOnly := by
  unfold State.isNormal
  cases s.fault.mode <;> decide

/-! ## Events and faults -/

/-- All that an offer does in NORMAL mode: the queue takes the event's record. -/
theorem offer_of_normal (object : Nat) (d : Detail) (n : s.isNormal = true) :
    offer object d s =
      { s with report := { s.report with queue := takeEvent (s.firstRecord object d) s.report.queue } } := by
  simp only [offer, State.takesOffer, n, Bool.true_or, if_true]

/-- No record is made while the mode is PASS-ONLY (R37). -/
theorem offer_of_no_record (object : Nat) (d : Detail) (n : s.isNormal = false)
    (h : s.report.queue.any (Record.ofPair object d) = false) : offer object d s = s := by
  simp [offer, State.takesOffer, n, h]

/-- A report unit that has taken the entry into PASS-ONLY mode takes no event (R37, R201). -/
theorem offer_of_stopped (object : Nat) (d : Detail) (n : s.isNormal = false) (h : s.report.stopped = true) :
    offer object d s = s := by
  simp [offer, State.takesOffer, n, h]

/-- Before that entry, an event whose pair has a record is coalesced into it (R31, R201). -/
theorem offer_of_record (object : Nat) (d : Detail) (h : s.report.stopped = false)
    (q : s.report.queue.any (Record.ofPair object d) = true) :
    let joined (r : Record) : Record := if r.ofPair object d then r.coalesce d else r
    offer object d s = { s with report := { s.report with queue := s.report.queue.map joined } } := by
  have q' : s.report.queue.any
      (Record.ofPair (s.firstRecord object d).object (s.firstRecord object d).detail) = true := q
  simp only [offer, State.takesOffer, h, q, Bool.not_false, Bool.and_self, Bool.or_true, if_true, takeEvent, q']
  rfl

@[simp] theorem offer_isNormal (object : Nat) (d : Detail) : (offer object d s).isNormal = s.isNormal := by
  simp only [State.isNormal, (offer_changes object d s).fault]

theorem coalesce_kind {object : Nat} {d : Detail} {r : Record} (h : r.ofPair object d = true) :
    (r.coalesce d).detail.kind = r.detail.kind ∧ (r.coalesce d).object = r.object := by
  simp only [Record.ofPair, Bool.and_eq_true, beq_iff_eq] at h
  refine ⟨?_, rfl⟩
  obtain ⟨_, h⟩ := h
  unfold Record.coalesce
  revert h
  cases r.detail <;> cases d <;> simp [Detail.merge, Detail.kind]

/-- All that a nonfatal fault does in NORMAL mode. -/
theorem raiseFault_of_normal (c : FaultClass) (a : FailAddress) (n : s.isNormal = true) :
    raiseFault c a s = faultedState c.object a s := by
  have n' : s.fault.mode = .normal := isNormal_iff.1 n
  simp only [raiseFault, n, if_true, offer, State.takesOffer, faultedState, State.firstRecord]
  simp [State.isNormal, n']

theorem raiseFault_of_passOnly (c : FaultClass) (a : FailAddress) (n : s.isNormal = false) :
    raiseFault c a s = s := by
  simp [raiseFault, n]

@[simp] theorem raiseFault_isNormal (c : FaultClass) (a : FailAddress) :
    (raiseFault c a s).isNormal = s.isNormal := by
  cases n : s.isNormal
  · rw [raiseFault_of_passOnly c a n, n]
  · rw [raiseFault_of_normal c a n]
    exact n

/-- All that a withdrawal does: the requester's queue is empty, and the lockout count is settled. -/
theorem withdraw_eq (q : Fin 8) (s : State) :
    withdraw q s = { s with path := { s.path with
      queues := s.path.queues.set q RequestQueue.empty, lockout := (withdraw q s).path.lockout } } := by
  unfold withdraw settleLockout
  split <;> rfl

theorem raiseFatal_of_normal (c : FatalCause) (n : s.isNormal = true) :
    (raiseFatal c s).fault = { s.fault with mode := .passOnly, cause := some c } := by
  simp only [raiseFatal, n, if_true]
  rw [withdraw_eq]

theorem raiseFatal_of_passOnly (c : FatalCause) (n : s.isNormal = false) :
    raiseFatal c s = { s with fault := { s.fault with further := min (s.fault.further + 1) 255 } } := by
  simp [raiseFatal, n]

/-- What every fatal cause leaves of the path unit. -/
theorem raiseFatal_path (c : FatalCause) (s : State) :
    (raiseFatal c s).path =
      { s.path with queues := (raiseFatal c s).path.queues, lockout := (raiseFatal c s).path.lockout } := by
  unfold raiseFatal
  split
  · rw [withdraw_eq]
  · rfl

/-! ## Upsets -/

/-- Upsets touch no more of the path unit than its parity errors. -/
theorem strikes_path (us : List Upset) (s : State) :
    (strikes us s).path = { s.path with parityBad := (strikes us s).path.parityBad } := by
  unfold strikes
  induction us generalizing s with
  | nil => rfl
  | cons u us ih =>
    rw [List.foldl_cons, ih]
    cases u with
    | window i => rfl
    | accumulator next b i => cases next <;> rfl
    | clip i => rfl

/-! ## Requests of the part's own -/

/-- All that presenting can do: nothing, or the next request made is presented, or it is dropped because its
window is gone. -/
theorem presentNext_cases (q : Fin 8) (s : State) :
    presentNext q s = s ∨
    ∃ m rest, (s.path.queues[q]).waiting = none ∧ (s.path.queues[q]).later = m :: rest ∧
      s.isNormal = true ∧
      ((∃ r, s.requestOf m = some r ∧ presentNext q s = notePresented m (s.setQueue q
          { waiting :=
              some { purpose := m.purpose, request := r, ahead := s.path.forward.length, stale := false }
            later := rest })) ∨
       (s.requestOf m = none ∧ presentNext q s = s.setQueue q { waiting := none, later := rest })) := by
  unfold presentNext
  dsimp only
  split
  · rename_i m rest hw hl
    split
    · rename_i n
      right
      refine ⟨m, rest, hw, hl, n, ?_⟩
      split
      · rename_i r hr
        exact Or.inl ⟨r, hr, rfl⟩
      · rename_i hr
        exact Or.inr ⟨hr, rfl⟩
    · exact Or.inl rfl
  · exact Or.inl rfl

/-- A request noted as presented changes counts of the bus output queue and of the interval writes only. -/
theorem notePresented_eq (m : Made) (s : State) :
    notePresented m s =
      { s with
        mixer := { s.mixer with busQueue := (notePresented m s).mixer.busQueue }
        fault := { s.fault with writes := (notePresented m s).fault.writes } } := by
  unfold notePresented
  split
  · rfl
  · split <;> rfl
  · rfl

@[simp] theorem notePresented_isNormal (m : Made) : (notePresented m s).isNormal = s.isNormal := by
  rw [notePresented_eq]
  rfl

@[simp] theorem presentNext_isNormal (q : Fin 8) : (presentNext q s).isNormal = s.isNormal := by
  rcases presentNext_cases q s with h | ⟨m, rest, _, _, _, ⟨r, _, h⟩ | ⟨_, h⟩⟩ <;> rw [h]
  · rw [notePresented_isNormal]
    rfl
  · rfl

/-- What making a request leaves: the queues, the bus output queue and the interval writes may change. -/
theorem makeRequest_eq (q : Fin 8) (m : Made) (s : State) :
    makeRequest q m s =
      { s with
        path := { s.path with queues := (makeRequest q m s).path.queues }
        mixer := { s.mixer with busQueue := (makeRequest q m s).mixer.busQueue }
        fault := { s.fault with writes := (makeRequest q m s).fault.writes } } := by
  unfold makeRequest
  split
  · dsimp only
    generalize hs : s.setQueue q _ = t
    have ht : t = { s with path := { s.path with queues := t.path.queues } } := by
      subst hs
      rfl
    rcases presentNext_cases q t with h | ⟨m', rest, _, _, _, ⟨r, _, h⟩ | ⟨_, h⟩⟩
    · rw [h]
      rw [ht]
    · rw [h, notePresented_eq]
      rw [ht]
      rfl
    · rw [h]
      rw [ht]
      rfl
  · rfl

@[simp] theorem makeRequest_isNormal (q : Fin 8) (m : Made) : (makeRequest q m s).isNormal = s.isNormal := by
  rw [makeRequest_eq]
  rfl

/-- What making several requests leaves. -/
theorem makeRequests_eq (q : Fin 8) (ms : List Made) (s : State) :
    makeRequests q ms s =
      { s with
        path := { s.path with queues := (makeRequests q ms s).path.queues }
        mixer := { s.mixer with busQueue := (makeRequests q ms s).mixer.busQueue }
        fault := { s.fault with writes := (makeRequests q ms s).fault.writes } } := by
  unfold makeRequests
  induction ms generalizing s with
  | nil => rfl
  | cons m ms ih =>
    rw [List.foldl_cons, ih, makeRequest_eq]

/-! ## Responses to requests of the part's own -/

theorem heldBy_eq {tag : BitVec 8} {k : Fin 32} {i : Issued} (h : s.heldBy tag = some (k, i)) :
    tag.toNat = 64 + k.val ∧ s.path.pool[k] = some i := by
  unfold State.heldBy toFin at h
  split at h
  · rename_i j e
    split at e
    · rename_i lt
      obtain rfl := Option.some.inj e
      split at h
      · rename_i le
        rw [Option.map_eq_some_iff] at h
        obtain ⟨x, hx, e⟩ := h
        obtain ⟨rfl, rfl⟩ := Prod.mk.inj e
        exact ⟨by dsimp only; omega, hx⟩
      · cases h
    · cases e
  · cases h

/-- The state once the tag of an answered request is free and an ERROR has made its fault. -/
theorem acceptResponse_of_normal (k : Fin 32) (i : Issued) (r : Response) (n : s.isNormal = true) :
    acceptResponse k i r s =
      if r.ok then freeTag k s else faultedState 1 (failAt i.request.addr) (freeTag k s) := by
  have n' : (freeTag k s).isNormal = true := n
  unfold acceptResponse
  dsimp only
  rw [raiseFault_of_normal _ _ n']
  rfl

/-- The step of a response that is not discarded, in either mode. -/
theorem internalReturn_of_taken {wanted : Purpose → Bool} {taken : Issued → Response → State → State}
    {r : Response} {k : Fin 32} {i : Issued} (a : r.wellFormed = true) (b : s.heldBy r.tag = some (k, i))
    (c : i.fits r = true) (d : s.discards i.purpose = false) (hw : wanted i.purpose = true) :
    internalReturn wanted taken r s = .next (taken i r (acceptResponse k i r s)) := by
  simp [internalReturn, a, b, hw, d, c]

/-- The step of a response that answers a request of the wanted purpose in NORMAL mode. -/
theorem internalReturn_of_answers {wanted : Purpose → Bool} {taken : Issued → Response → State → State}
    {r : Response} {k : Fin 32} {i : Issued} (h : Answers r k i s) (hw : wanted i.purpose = true) :
    internalReturn wanted taken r s = .next (taken i r
      (if r.ok then freeTag k s else faultedState 1 (failAt i.request.addr) (freeTag k s))) := by
  obtain ⟨a, b, c, d, e⟩ := h
  rw [internalReturn_of_taken a b c e hw, acceptResponse_of_normal k i r d]

/-- All the next states of a response step: nothing, a freed tag after the entry into PASS-ONLY mode, or what
its requester does once the response has been accepted. -/
theorem internalReturn_next {wanted : Purpose → Bool} {taken : Issued → Response → State → State}
    {r : Response} {t : State} (h : internalReturn wanted taken r s = .next t) :
    t = s ∨ (∃ k i, s.heldBy r.tag = some (k, i) ∧ s.discards i.purpose = true ∧ t = freeTag k s) ∨
      ∃ k i, s.discards i.purpose = false ∧ wanted i.purpose = true ∧ s.heldBy r.tag = some (k, i) ∧
        t = taken i r (acceptResponse k i r s) := by
  unfold internalReturn at h
  split at h
  · split at h
    · rename_i k i e
      split at h
      · rename_i w
        split at h
        · rename_i n
          cases h
          exact Or.inr (Or.inl ⟨k, i, e, n, rfl⟩)
        · rename_i n
          split at h
          · cases h
            exact Or.inr (Or.inr ⟨k, i, by simpa using n, w, e, rfl⟩)
          · cases h
      · cases h
        exact Or.inl rfl
    · cases h
      exact Or.inl rfl
  · cases h

/-! ## Completions -/

theorem complete_of_stopped (c : Completion) (result : Nat) (h : s.command.stopped = true) :
    complete c result s = { s with command := { s.command with handed := none } } := by
  simp [complete, h]

theorem complete_of_running (c : Completion) (result : Nat) (h : s.command.stopped = false) :
    complete c result s = makeRequest commandQueue
      { purpose := .completionWrite false, fixed := some (s.completionRequest c result) }
      { s with command := { s.command with state := .completing, handed := none, gather := none } } := by
  simp [complete, h]

/-! ## Arrival -/

theorem exec_fabricRequest_of_arrives {r : Request} {us : List Upset} {s₀ : State} (h : Arrives r us s₀ s) :
    exec (.fabricRequest r us) s₀ = .next (arrive r s) := by
  obtain ⟨w, f, rfl⟩ := h
  simp only [exec, execFabricRequest, w, Config.forwardPlaces, f, if_true]

theorem outstanding_of_tagFree {r : Request} (h : TagFree r s) :
    (s.path.tags[r.tag.toFin]).outstanding = false := by
  obtain ⟨a, b⟩ := h
  unfold TagRecord.outstanding
  rw [a, b]
  rfl

theorem forwardRequest_of_tagFree {r : Request} (h : TagFree r s) : forwardRequest r s = forwardedState r s := by
  obtain ⟨a, b⟩ := h
  simp only [forwardRequest, forwardedState, State.setPath, a, b, Nat.zero_add]

theorem interceptRead_of_tagFree {r : Request} {beats : List Word} (h : TagFree r s) :
    interceptRead r beats s = interceptedState r beats s := by
  obtain ⟨a, b⟩ := h
  simp only [interceptRead, interceptedState, State.setPath, a, b, Nat.zero_add]

theorem arrive_of_classified {r : Request} (h : Classified r s) : arrive r s = classify r s := by
  obtain ⟨n, t, p⟩ := h
  simp only [arrive, outstanding_of_tagFree t, n, p]
  rfl

theorem pageOffset_of_in {r : Request} (h : InControlPage r s) :
    s.pageOffset r = some (requestByte r - s.controlPage) := by
  unfold State.pageOffset
  exact if_pos h

theorem pageOffset_of_out {r : Request} (h : ¬ InControlPage r s) : s.pageOffset r = none := by
  unfold State.pageOffset
  exact if_neg h

theorem statusOffset_eq (r : Request) (s : State) :
    s.statusOffset r =
      if requestReads r = true ∧ s.controlPage + 0x1000 ≤ requestByte r ∧
          requestByte r ≤ s.controlPage + 0x13FF then
        some (requestByte r - s.controlPage)
      else none := by
  simp only [State.statusOffset, State.pageOffset]
  split <;> rename_i h
  · split at h
    · obtain rfl := Option.some.inj h
      by_cases a : requestReads r = true
      · simp only [a, Bool.true_and, Bool.and_eq_true, decide_eq_true_eq, true_and]
        congr 1
        apply propext
        constructor <;> intro h <;> omega
      · simp [a]
    · cases h
  · split at h
    · cases h
    · rw [if_neg]
      rintro ⟨_, b⟩
      omega

theorem passThrough_of_statusRead {r : Request} (h : StatusRead r s) :
    passThrough r s =
      interceptRead r (s.statusBeats (requestByte r - s.controlPage) r.burst.beats) s := by
  obtain ⟨⟨n, hb⟩, sp, a, b⟩ := h
  unfold passThrough
  rw [statusOffset_eq, if_pos ⟨by simp [requestReads, hb], a, b⟩]
  simp [sp]

theorem passThrough_of_not_statusRead {r : Request} (h : ¬ StatusRead r s) :
    passThrough r s = forwardRequest r s := by
  unfold passThrough
  rw [statusOffset_eq]
  split
  · rename_i o e
    split at e
    · rename_i k
      split
      · rfl
      · rename_i sp
        refine absurd ⟨?_, by simpa using sp, k.2⟩ h
        have reads := k.1
        unfold requestReads at reads
        revert reads
        cases r.burst <;> simp
    · cases e
  · rfl

/-- A request that reaches test 3 of R7 is classified by its window. -/
theorem classify_of_windowIs {r : Request} {w : WindowEntry} (h : WindowIs w r s) :
    classify r s = classifyWindow r s := by
  obtain ⟨sp, out, _⟩ := h
  simp only [classify, sp, pageOffset_of_out out]
  rfl

/-! ## The label unit's posting -/

/-- What one decision or several leave of the label unit: the clip table, the close-order list, the uplink
queue and the write in flight may change, and parity faults may be taken. -/
def LabelSettled (s t : State) : Prop :=
  t = { s with
    report := { s.report with queue := t.report.queue }
    fault := { s.fault with classes := t.fault.classes }
    label := { s.label with
      clips := t.label.clips, order := t.label.order, uplink := t.label.uplink, inFlight := t.label.inFlight } }

theorem LabelSettled.refl (s : State) : LabelSettled s s := rfl

theorem LabelSettled.trans {s t u : State} (h : LabelSettled s t) (k : LabelSettled t u) : LabelSettled s u := by
  unfold LabelSettled at *
  rw [k, h]

theorem raiseFault_eq (c : FaultClass) (a : FailAddress) (s : State) :
    raiseFault c a s =
      { s with
        report := { s.report with queue := (raiseFault c a s).report.queue }
        fault := { s.fault with classes := (raiseFault c a s).fault.classes } } := by
  cases n : s.isNormal
  · rw [raiseFault_of_passOnly c a n]
  · rw [raiseFault_of_normal c a n]
    rfl

theorem dropBadClip_settled (i : Fin 32) (s : State) : LabelSettled s (dropBadClip i s) := by
  unfold LabelSettled dropBadClip
  dsimp only
  rw [raiseFault_eq]
  rfl

theorem markPosted_settled (i : Fin 32) (f : Closing → Closing) (s : State) :
    LabelSettled s (markPosted i f s) := by
  unfold markPosted
  split
  · dsimp only
    split
    · rfl
    · rfl
  · rfl

theorem uplinkOnce_settled (s : State) : LabelSettled s (uplinkOnce s).1 := by
  unfold uplinkOnce
  split
  · rfl
  split
  · rfl
  split
  · exact dropBadClip_settled ..
  split
  · rfl
  split
  · split
    · exact LabelSettled.trans (t := s.setLabel _) rfl (markPosted_settled ..)
    · rfl
  · exact markPosted_settled ..

theorem ringOnce_settled (s : State) : LabelSettled s (ringOnce s).1 := by
  unfold ringOnce
  split
  · rfl
  split
  · rfl
  split
  · exact dropBadClip_settled ..
  split
  · exact markPosted_settled ..
  · rfl

theorem settle_settled {once : State → State × Bool} (h : ∀ s, LabelSettled s (once s).1) (n : Nat) (s : State) :
    LabelSettled s (settle once n s) :=
  settle_induction once LabelSettled.refl h LabelSettled.trans n s

theorem uplinkSettle_settled (s : State) : LabelSettled s (uplinkSettle s) := by
  unfold uplinkSettle
  split
  · rfl
  · exact settle_settled uplinkOnce_settled ..

theorem ringSettle_settled (s : State) : LabelSettled s (ringSettle s) := by
  unfold ringSettle
  split
  · rfl
  · split
    · rfl
    · exact settle_settled ringOnce_settled ..

theorem ringGiveUp_settled (s : State) (i : Fin 32) : LabelSettled s (ringGiveUp s i) := by
  unfold ringGiveUp
  split
  · rfl
  split
  · split
    · exact dropBadClip_settled ..
    · exact markPosted_settled ..
  · rfl

theorem ringGone_settled (s : State) : LabelSettled s (ringGone s) := by
  have all : ∀ (is : List (Fin 32)) (s : State), LabelSettled s (is.foldl ringGiveUp s) := by
    intro is
    induction is with
    | nil => intro s; rfl
    | cons i is ih => intro s; exact (ringGiveUp_settled s i).trans (ih _)
  unfold ringGone
  split
  · rfl
  · split
    · rfl
    · exact all ..

/-- A frame slot that R105 gives a number is recorded by it. -/
theorem slotRecorded_of_lt {slot : Nat} (h : slot < 65536) : slotRecorded slot = BitVec.ofNat 16 slot := if_pos h

/-- What is recorded for a higher slot is a free value (log 53). -/
theorem slotRecorded_of_le {slot : Nat} (h : 65536 ≤ slot) : slotRecorded slot = Config.highSlot slot :=
  if_neg (Nat.not_lt.mpr h)

theorem postSettle_settled (s : State) : LabelSettled s (postSettle s) :=
  (ringSettle_settled s).trans (uplinkSettle_settled _)

end Sys2Proof.Machine
end

