-- ==== Sys2Proof/Tests/Slice0.lean ====
section
/-! SUPPORT. Tests: the well-formedness smoke, the manual's worked values, one step of each kind, and for every
obligation with hypotheses a state and operands that meet them. -/
set_option Elab.async false

namespace Sys2Proof.Tests

open Sys2Proof Sys2Proof.Machine

/-! ## Small states -/

/-- The part after a reset with strap value 1: the control page lies at 0x001000000 (1.5). -/
def base : State := { State.reset with path := { Path.reset with cpb := 1 } }

/-- A window entry. -/
def entry (kind object firstByte pages perFrame : Nat) : WindowEntry :=
  { base := BitVec.ofNat 64 firstByte, size := BitVec.ofNat 32 pages, kind := BitVec.ofNat 8 kind,
    object := BitVec.ofNat 8 object, perFrame := BitVec.ofNat 16 perFrame }

/-- The state with a window in entry k of the applied table. -/
def withWindow (k : Fin 16) (e : WindowEntry) (s : State) : State :=
  { s with path := { s.path with windows := s.path.windows.set k e } }

/-- The state in PASS-ONLY mode, no block having taken the entry. -/
def passOnly (s : State) : State :=
  { s with fault := { s.fault with mode := .passOnly, cause := some (.unknownTag 7) } }

/-- The state with a request of the part's own held by tag 64. -/
def holding (p : Purpose) (r : MemRequest) (s : State) : State :=
  let held : Issued := { purpose := p, request := r, stale := false }
  { s with path := { s.path with pool := s.path.pool.set (0 : Fin 32) (some held) } }

/-- The state with a command handed to its owner. -/
def handing (h : Handed) (s : State) : State :=
  { s with command := { s.command with state := .executing, handed := some h } }

/-- The state with a bad parity in entry k. -/
def badEntry (k : Fin 16) (s : State) : State :=
  { s with path := { s.path with parityBad := s.path.parityBad.set k true } }

/-- The state with one request under fabric tag 9 outstanding. -/
def outstanding (s : State) : State :=
  { s with path := { s.path with
      tags := s.path.tags.set (9 : Fin 64) { forwarded := 1, intercepted := 0, address := beatOf 0x2000 } } }

/-- A read under tag 9. -/
def readFrom (byte beats : Nat) : Request := { addr := beatOf byte, tag := 9, burst := .read beats }

/-- A write of full beats of one value under tag 9. -/
def writeTo (byte value beats : Nat) : Request :=
  { addr := beatOf byte, tag := 9
    burst := .write (List.replicate beats { data := BitVec.ofNat 64 value, enables := 0xFF }) }

/-- A one-beat write with chosen enables under tag 9. -/
def writeSome (byte value enables : Nat) : Request :=
  { addr := beatOf byte, tag := 9
    burst := .write [{ data := BitVec.ofNat 64 value, enables := BitVec.ofNat 8 enables }] }

/-- A response under tag 64. -/
def reply (ok : Bool) (data : List Word) : Response := { tag := 64, ok := ok, data := data }

/-- What holds of the next state. -/
def after (o : Host.Outcome State Fault Refusal) (test : State → Bool) : Bool :=
  match o with
  | .next s => test s
  | .fault _ => false
  | .refused _ => false

/-- The command is refused for this reason. -/
def refusedFor (o : Host.Outcome State Fault Refusal) (why : Refusal) : Bool :=
  match o with
  | .next _ => false
  | .fault _ => false
  | .refused r => r == why

/-! ## Well-formedness (R1) -/

theorem test_wellFormed_refuses_empty_read : (Instr.fabricRequest (readFrom 0 0) []).wellFormed = false := by decide

theorem test_wellFormed_refuses_long_write :
    (Instr.fabricRequest (writeTo 0 0 17) []).wellFormed = false := by decide +kernel

theorem test_wellFormed_refuses_long_response :
    (Instr.memoryResponse (reply true (List.replicate 17 0))).wellFormed = false ∧
      (Instr.recordReadReturn (reply true (List.replicate 17 0))).wellFormed = false := by decide +kernel

theorem test_wellFormed_admits_sixteen_beats :
    (Instr.fabricRequest (readFrom 0 16) []).wellFormed = true ∧
      (Instr.memoryResponse (reply true (List.replicate 16 0))).wellFormed = true := by decide +kernel

theorem test_exec_refuses_malformed :
    refusedFor (exec (.fabricRequest (readFrom 0 17) []) base) .malformedRequest = true ∧
      refusedFor (exec (.memoryResponse (reply true (List.replicate 17 0))) base) .malformedResponse = true := by
  decide +kernel

theorem test_no_word_spells_a_command (n w : Nat) : decodeTableWord n w = none := rfl

/-! ## Worked values of the manual -/

/-- R180: the check value of "123456789". -/
theorem test_crc_check_value :
    crc32 [0x31, 0x32, 0x33, 0x34, 0x35, 0x36, 0x37, 0x38, 0x39] = 0xFC891918 := by decide +kernel

/-- R87, "Worked ramps". -/
theorem test_worked_ramps :
    let route (a b : Nat) : Route :=
      { record := { index := 0, bus := 0, source := 0, invert := false }
        g0 := BitVec.ofNat 16 a, g1 := BitVec.ofNat 16 b }
    ([0, 1, 3, 4, 23, 46, 47] : List (Fin 48)).map (route 16384 0).gainAt =
      [16043, 15702, 15019, 14678, 8192, 342, 0] ∧
    ([0, 1, 3, 4, 23, 46, 47] : List (Fin 48)).map (route 0 16384).gainAt =
      [341, 682, 1365, 1706, 8192, 16042, 16384] ∧
    ([0, 1, 3, 4, 23, 46, 47] : List (Fin 48)).map (route 100 110).gainAt =
      [100, 100, 100, 101, 105, 109, 110] := by decide +kernel

/-- R88, the table of products. -/
theorem test_products :
    let route (g : Nat) (inverted : Bool) : Route :=
      { record := { index := 0, bus := 0, source := 0, invert := inverted }
        g0 := BitVec.ofNat 16 g, g1 := BitVec.ofNat 16 g }
    (route 16384 false).product 5 (BitVec.ofInt 24 1000000) = 16384000000 ∧
    (route 8192 true).product 5 (BitVec.ofInt 24 (-600000)) = 4915200000 ∧
    (route 8192 true).product 5 3 = -24576 ∧
    (route 65535 true).product 5 (BitVec.ofInt 24 (-8388608)) = 549747425280 := by decide +kernel

/-- R90 and R91, "Worked roundings". -/
theorem test_worked_roundings :
    ([90112, -90112, 73727, 73728, -8191, -8192, 139264000000, -137438953472, 137438953472].map fun a =>
      (Accumulator.output { value := BitVec.ofInt 48 a, parityBad := false }).toInt) =
      [6, -6, 4, 5, 0, -1, 8388607, -8388608, 8388607] := by decide +kernel

/-- R94, "Worked meter figures". -/
theorem test_worked_meters :
    [meterAfter 8388607 0, meterAfter 7872512 8388608, meterAfter 4000000 1300000, meterAfter 63 0,
      meterAfter 31 0] = [8126464, 8388608, 3875000, 62, 31] := by decide +kernel

/-- R98: the containers of −6 and of 1,300,000. -/
theorem test_containers :
    ofLE (containerBytes (BitVec.ofInt 24 (-6))) = 0xFFFFFFFA ∧
      ofLE (containerBytes (BitVec.ofInt 24 1300000)) = 0x0013D620 := by decide +kernel

/-- R53, "Examples of the advance". -/
theorem test_timecode_advance :
    let t (hh mm ss ff : Nat) : Timecode := { hh := hh, mm := mm, ss := ss, ff := ff }
    (t 10 0 0 24).advance .r25 = t 10 0 1 0 ∧ (t 23 59 59 24).advance .r25 = t 0 0 0 0 ∧
      (t 1 59 59 49).advance .r50 = t 2 0 0 0 ∧ (t 0 0 59 29).advance .r30df = t 0 1 0 2 ∧
      (t 0 9 59 29).advance .r30df = t 0 10 0 0 ∧ (t 0 0 59 59).advance .r60df = t 0 1 0 4 := by decide +kernel

/-- R57, "Examples of a rate change". -/
theorem test_rate_change :
    let t (hh mm ss ff : Nat) : Timecode := { hh := hh, mm := mm, ss := ss, ff := ff }
    (t 10 0 0 56).adjust .r25 = t 10 0 0 24 ∧ (t 0 1 0 0).adjust .r30df = t 0 1 0 2 ∧
      (t 0 3 0 1).adjust .r60df = t 0 3 0 4 ∧ (t 11 22 34 0).adjust .r60df = t 11 22 34 0 := by decide +kernel

/-- R141, "Worked hint steps". -/
theorem test_worked_hint_steps :
    let g : StreamSettings := { camera := none, capacity := 4194304, target := 1048576, base := 24, step := 2 }
    [2621440, 524288, 1000000, 1048576, 4194304, 0].map (fun f => g.stepHint f 26) =
      [28, 24, 24, 24, 28, 24] := by decide +kernel

/-- 9.3, "Example: a run of zeros under Z3": the fourteen symbols, and the bits the receiver decodes. -/
theorem test_zero_run_example :
    let bits := [true, false, false, false, false, true, false, false, false, true, true, false, false, false]
    let p := Symbol.mark true
    let n := Symbol.mark false
    let o := Symbol.space
    let coded := codeBits .z3 Coder.reset bits
    let heard := decodeSymbols .z3 Receiver.reset coded.out
    coded.out = [p, o, o, p, o, n, o, o, n, p, n, p, o, p] ∧ coded.pending = 0 ∧
      heard.1 ++ heard.2.undecided.map (·.bit) = bits ∧ heard.2.violationsDue = 0 := by decide +kernel

/-! ## One step of some commands, from the examples of the manual -/

/-- 1.5: the two-beat write across sources 0 and 1 gives samples 0 and 1 of source 1, slot 0. -/
theorem test_audio_tap_across_sources :
    after (exec (.fabricRequest (writeTo 0x1000007F8 7 2) [])
      (withWindow 0 (entry 1 0 0x100000000 16 0) base)) (fun t =>
        t.mixer.current.arrivals[(1 : Fin 64)] == 3 && t.mixer.current.arrivals[(0 : Fin 64)] == 0 &&
          t.path.forward.length == 1) = true := by decide +kernel

/-- 1.5: a status-area read from 0x13F0 of 4 beats is intercepted, its last two beats zero. -/
theorem test_status_read_past_the_area :
    after (exec (.fabricRequest (readFrom 0x10013F0 4) []) base) (fun t =>
      t.path.forward.isEmpty && (t.path.intercepted.map fun x => (x.beats.length, x.beats.drop 2)) ==
        [(4, [0, 0])]) = true := by decide +kernel

/-- 11.6: the switch to PASS-ONLY by UNKNOWN_TAG shows mode 1, cause 2 and detail 0xC8. -/
theorem test_mode_word_after_unknown_tag :
    after (exec (.memoryResponse { tag := 0xC8, ok := true, data := [] }) base) (fun t =>
      t.faultPin && (t.statusBeats 0x1000 1 == [0x000000C800000201])) = true := by decide +kernel

/-- "Example: a ring overrun": with 6 in execution and the consumer at 6, producer 24 makes the consumer 8. -/
theorem test_ring_overrun :
    after (exec .producerCountWrite { base with command := { Command.reset with
        state := .executing, producer := 7, consumer := 6, executing := 6, inbox := [24] } }) (fun t =>
      t.command.consumer == 8 && t.command.producer == 24 && t.command.state == .executing &&
        (t.fault.classes[(3 : Fin 8)]).count == 1) = true := by decide +kernel

/-- "Example: coalescing, priority and clamping": the value 20 against 201 written becomes 74, the value 75
stands. -/
theorem test_clamping :
    clampConsumed 201 75 128 = 75 ∧ clampConsumed 201 20 127 = 74 ∧ clampConsumed 201 300 127 = 201 := by
  decide +kernel

/-- "Example: coalescing, priority and clamping": a FAULT record goes ahead of the STREAM record. -/
theorem test_fault_goes_ahead :
    let dropped (n : Nat) : State → State := offer 2 (.stream 1 0 0 (BitVec.ofNat 32 n))
    let s := raiseFault .burstSpan (.address 0x40) (dropped 4119 (dropped 4118 base))
    (s.report.queue.map fun r => (r.object, r.repeats, r.detail)) =
      [(0, 1, .fault (.address 0x40) 1), (2, 2, .stream 2 0 0 4119)] := by decide +kernel

/-- R31, R37, R201: after a fatal cause and before the report unit's own entry, an event joins the record of its pair
and makes no record. -/
theorem test_event_before_the_entry :
    let s := passOnly (offer 2 (.stream 1 0 0 7) base)
    ((offer 2 (.stream 1 0 0 8) s).report.queue.map fun r => (r.repeats, r.detail)) = [(2, .stream 2 0 0 8)] ∧
      offer 1 (.stream 1 0 0 8) s = s := by decide +kernel

/-- 3.6: a pulse at 25 ms after the last boundary in FREE_RUN locks and is counted; one at 10 ms is not. -/
theorem test_pulse_accepted_and_rejected :
    let free (elapsed : Nat) : State := { base with timing := { Timing.reset with
      video := { state := .freeRun, elapsed := elapsed, freeRun := 2, glitches := 0 } } }
    after (exec (.referencePulse .video) (free 5000000)) (fun t => t.timing.video.state == .locked &&
      t.timing.videoCount == 1 && t.report.queue.length == 1) = true ∧
    after (exec (.referencePulse .video) (free 2000000)) (fun t => t.timing.video.state == .freeRun &&
      t.timing.videoCount == 0 && t.timing.video.glitches == 1 && t.report.queue.isEmpty) = true := by decide +kernel

/-- 7.10: the KEY marker of 200,000 bytes is admitted as picture 1,201 and clears the key request. -/
theorem test_admission_example :
    let settings : StreamSettings := { camera := some 4, capacity := 524288, target := 131072, base := 20, step := 4 }
    let x : Stream := { Stream.reset with applied := some settings, hint := 20, keyRequest := true, counter := 1200 }
    let s := (withWindow 0 (entry 3 2 0x140000000 257 0) base).setStream 2 x
    after (exec (.fabricRequest (writeTo 0x140100000 (2 ^ 60 + 2 ^ 32 * 200000 + 200000) 1) []) s) (fun t =>
      let y := t.stream 2
      y.fill == 200000 && !y.keyRequest && y.lastAdmitted == 1201 &&
        y.pictures.map (fun p => (p.number, p.start, p.length)) == [(1201, 0, 200000)]) = true := by decide +kernel

/-- "Example: an overrun across a claim" of 7.10: the write at ring offset 196,608 makes picture 1,201
CORRUPT and takes its unsent bytes from the fill. -/
theorem test_overrun_example :
    let p (n start length unsent : Nat) (st : PictureState) : Picture :=
      { number := BitVec.ofNat 32 n, start := start, length := length, key := false, timecode := Timecode.zero,
        unsent := unsent, state := st }
    let x : Stream := { Stream.reset with
      fill := 519492
      pictures := [p 1201 0 200000 199492 .sending, p 1202 200000 150000 150000 .queued,
        p 1204 530000 170000 170000 .queued]
      claim := some { picture := 1201, length := 508, isVoid := false } }
    let y := x.tapped 1048576 (writtenOffsets 196608 (List.replicate 16 { data := 0, enables := 0xFF }))
    y.fill = 320000 ∧ y.pictures.map (·.state) = [.corrupt, .queued, .queued] ∧ y.keyRequest = true ∧
      y.claim.map (·.isVoid) = some true ∧ y.notices = [{ first := 1201, last := 1201, isPartial := true }] := by
  decide +kernel

/-- R4 and R11: no code above 7 is a kind, and an enabled entry of such a kind fails. -/
theorem test_kinds_above_seven : WindowKind.ofCode 8 = Option.none ∧ WindowKind.ofCode 255 = Option.none ∧
    firstBadEntry 0x1000000 [] [entry 0 0 0x3000 1 0, entry 8 0 0x3000 1 0] = some 1 := by decide +kernel

/-- 1.5: the table of the example is valid; with entry 1 made part-owned, it overlaps entry 0. -/
theorem test_window_table_example :
    firstBadEntry 0x1000000 [] [entry 1 0 0x100000000 16 0, entry 2 2 0x100008000 8 1, entry 3 1 0x140000000 257 0] =
      none ∧
    firstBadEntry 0x1000000 [] [entry 1 0 0x100000000 16 0, entry 4 0 0x100008000 8 0] = some 1 := by decide +kernel

/-- R11: the BUS_OUT size, the LABEL and REPORT limits, and the last AUDIO_IN source. -/
theorem test_window_sizes :
    ([(4, 0, 8), (4, 0, 7), (5, 0, 16), (5, 0, 17), (6, 0, 8), (6, 0, 9), (1, 56, 1), (1, 57, 1), (3, 0, 1)].map
      fun x => (entry x.1 x.2.1 0x8000000 x.2.2 0).badSize) =
      [false, true, false, true, false, true, false, true, true] := by decide +kernel

/-- R105: the final beat of slot 1 of camera 2 completes a frame, the beat before it does not. -/
theorem test_frame_completion :
    let s := withWindow 0 (entry 2 2 0x110000000 2 1) base
    let done (byte : Nat) : Bool := after (exec (.fabricRequest (writeTo byte 0 1) []) s) fun t =>
      (t.label.cameras[(2 : Fin 8)]).completions == 1 && (t.label.cameras[(2 : Fin 8)]).lastSlot == 1
    done 0x110001FF8 = true ∧ done 0x110001FF0 = false := by decide +kernel

/-- AudioAndPictureWritesAreTapped, at slots 65,535 and 65,536 of a PICTURE window of 65,537 pages, which R11 lets
pass: both are completions, and the second has a free value recorded. -/
theorem test_frame_completion_above_the_range :
    let w := entry 2 2 0x110000000 65537 1
    let s := withWindow 0 w base
    let last (slot : Nat) : Request := writeTo (0x110000FF8 + 4096 * slot) 0 1
    let done (slot : Nat) : Bool := after (exec (.fabricRequest (last slot) []) s) fun t =>
      (t.label.cameras[(2 : Fin 8)]).completions == 1 && (t.label.cameras[(2 : Fin 8)]).completed
    firstBadEntry 0x1000000 [] [w] = none ∧ done 65535 = true ∧ done 65536 = true ∧
      slotRecorded 65535 = 65535 ∧ slotRecorded 65536 = Config.highSlot 65536 :=
  ⟨by decide +kernel, by decide +kernel, by decide +kernel, by decide +kernel, rfl⟩

/-- R24: LINE_START with object 3 completes INVALID with 0xFFFD in the completion field of the record. -/
theorem test_object_out_of_range :
    let s := { base with command := { Command.reset with state := .fetching, executing := 5, consumer := 5 } }
    after (exec (.recordReadReturn (reply true [0x0306, 0, 0, 0]))
      (holding .recordRead { addr := beatOf 0x1000CA0, burst := .read 4 } s)) (fun t =>
        t.command.state == .completing && ((t.path.queues[commandQueue]).waiting.map fun w => w.request) ==
          some { addr := beatOf 0x1000CA0, burst := .write [{ data := 0x0000FFFD00040000, enables := 0xF4 }] }) =
      true := by decide +kernel

/-- R55: 00:01:00:00 names a skipped frame at 30DF and none at 25. -/
theorem test_jam_skipped :
    jamChecks { hh := 0, mm := 1, ss := 0, ff := 0 } .r30df =
      [(1, false), (2, false), (3, false), (4, false), (5, true)] ∧
      firstFailure (jamChecks { hh := 0, mm := 1, ss := 0, ff := 0 } .r25) = none := by decide +kernel

/-- R114, R109: an IN mark opens record 0 as clip 1, and an OUT mark closes it into the close-order list. -/
theorem test_clip_in_and_out :
    let b : VideoBoundary := { state := .locked, cause := .pulse, timecode := Timecode.zero, count := 7 }
    let m : Capture := { audioCount := 280, overwritten := false, mark := none }
    let t := applyMark .markOut 3 m b (applyMark .markIn 3 m b base)
    (t.label.clips[(0 : Fin 32)]).map (fun c => (c.id, c.inVideo, c.inAudio, c.isOpen)) = some (1, 7, 280, false) ∧
      t.label.order = [0] ∧ t.label.nextId = 2 ∧ t.label.stray = 0 := by decide +kernel

/-- R182: under Z3 a symbol leaves three symbol times behind its bit. -/
theorem test_coder_delay :
    let c := Coder.reset
    let time (c : Coder) : Symbol × Coder := (c.take .z3 true).emit .z3
    ((time c).1, (time (time c).2).1, (time (time (time c).2).2).1, (time (time (time (time c).2).2).2).1) =
      (.space, .space, .space, .mark true) := by decide +kernel

/-- R182, R183 (log 45): two zeros pending under Z4 when the code becomes Z3; the next zero makes a run of three, and
three pending zeros make a run with one space before it. -/
theorem test_zeros_over_a_code_change :
    let c (n : Nat) : Coder := { Coder.reset with pending := n }
    ((c 2).takeZero .z3).out = (c 2).substitution 3 ∧
      ((c 3).takeZero .z3).out = .space :: (c 3).substitution 3 := by decide +kernel

/-! ## States and operands that meet the hypotheses of the statements, in the statements' order -/

/-- A well-formed request arrives without upsets at a part whose forward queue has a place. -/
theorem arrives_quietly {r : Request} {s : State} (h : r.wellFormed = true) (h' : s.path.forward.length < 32) :
    Arrives r [] s s := ⟨h, h', rfl⟩

/-- StepRunsTheFrontCommand. -/
theorem test_meets_step : (base.withPending [.gainFieldWrite, .jamTimecode]).pending =
    .gainFieldWrite :: [.jamTimecode] ∧ base.pending = [] := ⟨rfl, rfl⟩

/-- PlainRequestIsForwardedOnly, PASS-ONLY: the first byte past the status area. -/
theorem test_meets_plain_pass_only : Arrives (readFrom 0x1001400 1) [] (passOnly base) (passOnly base) ∧
    (passOnly base).isNormal = false ∧ TagFree (readFrom 0x1001400 1) (passOnly base) ∧
    ¬ StatusRead (readFrom 0x1001400 1) (passOnly base) :=
  ⟨arrives_quietly (by decide) (by decide), by decide, by unfold TagFree; decide +kernel,
    fun h => absurd h.2.2.2 (by decide +kernel)⟩

/-- PlainRequestIsForwardedOnly: a write just below and one just above the control page. -/
theorem test_meets_plain_request : ∀ r ∈ [writeTo 0xFFFFF8 1 1, writeTo 0x1002000 1 16],
    Arrives r [] base base ∧ Classified r base ∧ requestSpans r = false ∧ ¬ InControlPage r base ∧
      base.windowOf r = none := by
  intro r h
  simp only [List.mem_cons, List.not_mem_nil, or_false] at h
  rcases h with rfl | rfl
  all_goals
    exact ⟨arrives_quietly (by decide +kernel) (by decide), by unfold Classified TagFree; decide +kernel,
      by decide +kernel, by unfold InControlPage; decide +kernel, by decide +kernel⟩

/-- PlainRequestIsForwardedOnly: reads of the control page on both sides of the status area. -/
theorem test_meets_plain_page_read : ∀ r ∈ [readFrom 0x1000FF8 1, readFrom 0x1001400 16],
    Arrives r [] base base ∧ Classified r base ∧ requestSpans r = false ∧ InControlPage r base ∧
      (∃ n, r.burst = .read n) ∧ ¬ StatusRead r base := by
  intro r h
  simp only [List.mem_cons, List.not_mem_nil, or_false] at h
  rcases h with rfl | rfl
  · exact ⟨arrives_quietly (by decide) (by decide), by unfold Classified TagFree; decide +kernel,
      by decide +kernel, by unfold InControlPage; decide +kernel, ⟨_, rfl⟩,
      fun h => absurd h.2.2.1 (by decide +kernel)⟩
  · exact ⟨arrives_quietly (by decide) (by decide), by unfold Classified TagFree; decide +kernel,
      by decide +kernel, by unfold InControlPage; decide +kernel, ⟨_, rfl⟩,
      fun h => absurd h.2.2.2 (by decide +kernel)⟩

/-- SpanningBurstIsForwardedWithFault: the smallest burst over a page's end. -/
theorem test_meets_spanning : Arrives (readFrom 0xFF8 2) [] base base ∧ Classified (readFrom 0xFF8 2) base ∧
    requestSpans (readFrom 0xFF8 2) = true :=
  ⟨arrives_quietly (by decide) (by decide), by unfold Classified TagFree; decide +kernel, by decide +kernel⟩

/-- StatusAreaReadIsIntercepted: the first and the last beat, in NORMAL and in PASS-ONLY mode. -/
theorem test_meets_status : ∀ r ∈ [readFrom 0x1001000 1, readFrom 0x10013F8 1], ∀ s ∈ [base, passOnly base],
    Arrives r [] s s ∧ TagFree r s ∧ (s.isNormal = true → s.parityErrors = []) ∧ StatusRead r s := by
  intro r h s h'
  simp only [List.mem_cons, List.not_mem_nil, or_false] at h h'
  rcases h with rfl | rfl <;> rcases h' with rfl | rfl
  all_goals
    exact ⟨arrives_quietly (by decide) (by decide), by unfold TagFree; decide +kernel, by decide +kernel,
      ⟨⟨_, rfl⟩, by decide +kernel, by decide +kernel, by decide +kernel⟩⟩

/-- The state with a parity error held in an enabled entry. -/
def parityState : State := badEntry 15 (withWindow 15 (entry 6 0 0x2000000 1 0) base)

/-- FatalRequestIsStillHandled: a tag in use by a status-area read in both modes, and a parity error with the tag free
and a read elsewhere. -/
theorem test_meets_fatal :
    (∀ s ∈ [outstanding base, outstanding (passOnly base)],
      Arrives (readFrom 0x1001000 1) [] s s ∧ ¬ TagFree (readFrom 0x1001000 1) s ∧
        StatusRead (readFrom 0x1001000 1) s) ∧
    Arrives (readFrom 0x5000 1) [] parityState parityState ∧ TagFree (readFrom 0x5000 1) parityState ∧
      parityState.isNormal = true ∧ parityState.parityErrors ≠ [] ∧
      ¬ StatusRead (readFrom 0x5000 1) parityState := by
  refine ⟨?_, arrives_quietly (by decide) (by decide), by unfold TagFree; decide +kernel, by decide,
    by decide +kernel, fun h => absurd h.2.2.1 (by decide +kernel)⟩
  intro s h
  simp only [List.mem_cons, List.not_mem_nil, or_false] at h
  rcases h with rfl | rfl
  all_goals exact ⟨arrives_quietly (by decide) (by decide), by unfold TagFree; decide +kernel,
    ⟨1, rfl⟩, by decide +kernel, by decide +kernel, by decide +kernel⟩

/-- A one-byte write of each of two gain fields. -/
def twoInPart : Request :=
  { addr := beatOf 0x1000400, tag := 9
    burst := .write [{ data := 0, enables := 1 }, { data := 0, enables := 2 }] }

/-- SnoopedFieldsAreHandedOver: a whole producer count, the last gain field written in part, two fields written in
part, and a write that reaches no snooped field. -/
theorem test_meets_snoop :
    ∀ r ∈ [writeTo 0x1000E00 3 3, writeSome 0x1000BF8 7 2, writeTo 0x1001FF8 0 1, twoInPart],
      Arrives r [] base base ∧ Classified r base ∧ requestSpans r = false ∧ InControlPage r base ∧
        ∃ beats, r.burst = .write beats := by
  intro r h
  simp only [List.mem_cons, List.not_mem_nil, or_false] at h
  rcases h with rfl | rfl | rfl | rfl
  all_goals
    exact ⟨arrives_quietly (by decide +kernel) (by decide), by unfold Classified TagFree; decide +kernel,
      by decide +kernel, by unfold InControlPage; decide +kernel, ⟨_, rfl⟩⟩

/-- The part-owned entry of the tests: one page of REPORT. -/
def reportEntry : WindowEntry := entry 6 0 0x2000000 1 0
/-- The state with it applied. -/
def withReport : State := withWindow 15 reportEntry base

/-- OwnedWindowRequestsAreForwarded: the window's last beat read and its first beat written; and an acceptance
with a forwarded request. -/
theorem test_meets_owned :
    (∀ r ∈ [readFrom 0x2000FF8 1, writeTo 0x2000000 1 1],
      Arrives r [] withReport withReport ∧ Classified r withReport ∧ WindowIs reportEntry r withReport ∧
        reportEntry.kindOf.owned = true) ∧
    ∃ t, exec (.memoryPortAcceptance 3) base = .next t := by
  refine ⟨?_, _, rfl⟩
  intro r h
  simp only [List.mem_cons, List.not_mem_nil, or_false] at h
  rcases h with rfl | rfl
  all_goals
    exact ⟨arrives_quietly (by decide +kernel) (by decide), by unfold Classified TagFree; decide +kernel,
      ⟨by decide +kernel, by unfold InControlPage; decide +kernel, by decide +kernel⟩, by decide +kernel⟩

/-- An AUDIO_IN window of two sources and a PICTURE window of camera 2 with one page per frame. -/
def audioEntry : WindowEntry := entry 1 0 0x100000000 1 0
/-- See `audioEntry`. -/
def pictureEntry : WindowEntry := entry 2 2 0x110000000 2 1
/-- The state with both applied. -/
def withCapture : State := withWindow 0 audioEntry (withWindow 1 pictureEntry base)

/-- AudioAndPictureWritesAreTapped: a read and a write of AUDIO_IN, and a PICTURE write of a slot's final beat. -/
theorem test_meets_audio_picture :
    (∀ r ∈ [readFrom 0x100000000 1, writeTo 0x100000FF8 1 1],
      Arrives r [] withCapture withCapture ∧ Classified r withCapture ∧ WindowIs audioEntry r withCapture ∧
        audioEntry.kindOf = .audioIn) ∧
    Arrives (writeTo 0x110000FF8 1 1) [] withCapture withCapture ∧
      Classified (writeTo 0x110000FF8 1 1) withCapture ∧
      WindowIs pictureEntry (writeTo 0x110000FF8 1 1) withCapture ∧
      pictureEntry.kindOf = .picture ∧ pictureEntry.object.toNat = (2 : Fin 8).val := by
  refine ⟨?_, arrives_quietly (by decide +kernel) (by decide), by unfold Classified TagFree; decide +kernel,
    ⟨by decide +kernel, by unfold InControlPage; decide +kernel, by decide +kernel⟩, by decide, by decide⟩
  intro r h
  simp only [List.mem_cons, List.not_mem_nil, or_false] at h
  rcases h with rfl | rfl
  all_goals
    exact ⟨arrives_quietly (by decide +kernel) (by decide), by unfold Classified TagFree; decide +kernel,
      ⟨by decide +kernel, by unfold InControlPage; decide +kernel, by decide +kernel⟩, by decide⟩

/-- A mixer at frame 4,000 whose frames hold one route from source 5 to bus 3 at unity. -/
def routedMixer : Mixer :=
  let q : Route := { record := { index := 40, bus := 3, source := 5, invert := false }, g0 := 16384, g1 := 16384 }
  let f : MixFrame := { MixFrame.empty with routes := [q] }
  { Mixer.reset with frame := 4000, current := f, next := f }

/-- SampleGoesToItsOpenFrame: the routes are without repeats; the slot is late, far, CURRENT and NEXT; and a
flag is clear before its sample and set after it. -/
theorem test_meets_sample :
    (∀ next, ((routedMixer.openFrame next).routes.map fun q => (q.record.bus, q.record.source)).Nodup) ∧
    (7 = (routedMixer.frame.toNat + 7) % 8) ∧
    (4 ≠ (routedMixer.frame.toNat + 7) % 8 ∧ 4 ≠ routedMixer.frame.toNat % 8 ∧
      4 ≠ (routedMixer.frame.toNat + 1) % 8) ∧
    (0 = (routedMixer.frame.toNat + 0) % 8 ∧ 1 = (routedMixer.frame.toNat + 1) % 8) ∧
    ((routedMixer.openFrame true).arrivals[(5 : Fin 64)].getLsbD 47 = false) ∧
    (((routedMixer.takeSample 5 1 47 1000000).openFrame true).arrivals[(5 : Fin 64)].getLsbD 47 = true) ∧
    ((((routedMixer.takeSample 5 1 47 1000000).openFrame true).rows[(3 : Fin 16)][(47 : Fin 48)]).value =
      16384000000) := by
  decide +kernel

/-- A CODED window of stream 1 with a ring of one page, and a stream that can hold one picture of 4,096 bytes. -/
def codedEntry : WindowEntry := entry 3 1 0x140000000 2 0
/-- See `codedEntry`. -/
def withCoded : State :=
  (withWindow 2 codedEntry base).setStream 1 { Stream.reset with
    applied := some { camera := some 2, capacity := 65536, target := 1, base := 20, step := 1 } }

/-- The stream with a SENDING picture over the ring's bytes 0 to 999, a claim for its next piece, and a budget that
4,096 bytes more would pass. -/
def withPicture : State :=
  let p : Picture :=
    { number := 7, start := 0, length := 1000, key := true, timecode := Timecode.zero, unsent := 492
      state := .sending }
  withCoded.setStream 1 { withCoded.stream 1 with
    fill := 65000, pictures := [p], claim := some { picture := 7, length := 492, isVoid := false } }

/-- CodedWindowRequestsReachTheGovernor: the hint read, a read past it, a write past the marker beat, a payload
write up to the ring's end, and marker writes: bad, admitted (a whole ring); and, for a stream that holds a
picture with a claim or a full budget, a payload write over it and a marker that is dropped. -/
theorem test_meets_coded :
    (∀ r ∈ [readFrom 0x140001008 1, readFrom 0x140001010 1, writeTo 0x140001008 1 1, writeTo 0x140000F80 1 16,
        writeTo 0x140001000 0 1, writeTo 0x140001000 4096 1],
      Arrives r [] withCoded withCoded ∧ Classified r withCoded ∧ WindowIs codedEntry r withCoded ∧
        codedEntry.kindOf = .coded ∧ codedEntry.object.toNat = (1 : Fin 4).val) ∧
    (∀ r ∈ [writeTo 0x140000200 1 1, writeTo 0x140001000 4096 1],
      Arrives r [] withPicture withPicture ∧ Classified r withPicture ∧ WindowIs codedEntry r withPicture) ∧
    (withPicture.stream 1).capacity < (withPicture.stream 1).fill + 4096 ∧
    (([{ first := 1, last := 2, isPartial := false }] ++ [{ first := 3, last := 3, isPartial := true }] :
      List Notice).length < 4) ∧ withPicture.ClipsGood := by
  refine ⟨?_, ?_, by decide +kernel, by decide, fun j d h => absurd h (by revert j d; decide +kernel)⟩
  · intro r h
    simp only [List.mem_cons, List.not_mem_nil, or_false] at h
    rcases h with rfl | rfl | rfl | rfl | rfl | rfl
    all_goals
      exact ⟨arrives_quietly (by decide +kernel) (by decide), by unfold Classified TagFree; decide +kernel,
        ⟨by decide +kernel, by unfold InControlPage; decide +kernel, by decide +kernel⟩, by decide, by decide⟩
  · intro r h
    simp only [List.mem_cons, List.not_mem_nil, or_false] at h
    rcases h with rfl | rfl
    all_goals
      exact ⟨arrives_quietly (by decide +kernel) (by decide), by unfold Classified TagFree; decide +kernel,
        ⟨by decide +kernel, by unfold InControlPage; decide +kernel, by decide +kernel⟩⟩

/-- EveryRequestIsForwardedOrAnswered. -/
theorem test_meets_every_request : (readFrom 0x1001000 16).wellFormed = true ∧ base.path.forward.length < 32 := by
  decide

/-- What the part holds under tag 64 in `holding`. -/
def held (p : Purpose) (r : MemRequest) : Issued := { purpose := p, request := r, stale := false }

/-- A read of some beats at the control page. -/
def pageRead (beats : Nat) : MemRequest := { addr := beatOf 0x1000000, burst := .read beats }

/-- A write of one beat at the REPORT window of the tests. -/
def oneWrite : MemRequest := { addr := beatOf 0x2000000, burst := .write [{ data := 0, enables := 0xFF }] }

/-- The state with a forwarded request in the queue. -/
def withForward (s : State) : State :=
  { s with path := { s.path with forward := [readFrom 0x2000 1] } }

/-- The state with a report write waiting, with so many requests ahead of it. -/
def withWaiting (ahead : Nat) (s : State) : State :=
  let r : MemRequest := { addr := beatOf 0x2000000, burst := fullWrite (List.replicate 32 0) }
  let w : Waiting := { purpose := .reportPost false, request := r, ahead := ahead, stale := false }
  s.setQueue reportQueue { waiting := some w, later := [] }

/-- ForwardedRequestIsGranted: nothing eligible, and an eligible request one grant below the limit; and nothing
waiting. -/
theorem test_meets_forwarded_grant :
    ((withForward base).path.forward = [readFrom 0x2000 1] ∧ ∀ q, (withForward base).eligible q = false) ∧
    (let s := withForward (withWaiting 0 { withReport with path := { withReport.path with lockout := 15 } });
      s.path.forward = [readFrom 0x2000 1] ∧ s.path.lockout ≠ 16 ∧ s.eligible reportQueue = true) ∧
    (base.path.forward = [] ∧ ∀ q, base.eligible q = false) := by
  decide +kernel

/-- InternalRequestIsGranted: at the lockout limit with a forwarded request waiting, and with none; and a write of
each of the four units that its windows do not hold, and a label write of an old window. -/
theorem test_meets_internal_grant :
    (∀ s ∈ [withForward (withWaiting 0 { withReport with path := { withReport.path with lockout := 16 } }),
        withWaiting 0 withReport],
      (s.path.forward = [] ∨ s.path.lockout = 16) ∧ s.eligible (s.path.turn + 1) = true ∧
      (∀ e : Fin 8, e < 1 → s.eligible (s.path.turn + e) = false) ∧
      ∃ w, (s.path.queues[s.path.turn + 1]).waiting = some w ∧ w.stale = false ∧
        s.passesCheck w.purpose w.request = true) ∧
    ∀ x ∈ [((1 : Fin 8), Purpose.reportPost false, false), (2, .busWrite 9 31, false), (3, .labelWrite true, false),
        (3, .labelWrite false, true), (7, .measWrite 2 0 false, false)],
      let w : Waiting := { purpose := x.2.1, request := oneWrite, ahead := 0, stale := x.2.2 }
      let s := base.setQueue x.1 { waiting := some w, later := [] }
      s.path.forward = [] ∧ s.eligible (s.path.turn + x.1) = true ∧
        (∀ e : Fin 8, e < x.1 → s.eligible (s.path.turn + e) = false) ∧
        ¬ (w.stale = false ∧ s.passesCheck w.purpose w.request = true) ∧ s.isNormal = true := by
  refine ⟨?_, by decide +kernel⟩
  intro s h
  simp only [List.mem_cons, List.not_mem_nil, or_false] at h
  rcases h with rfl | rfl
  all_goals
    exact ⟨by decide +kernel, by decide +kernel, by decide +kernel, _, rfl, by decide +kernel, by decide +kernel⟩

/-- InternalRequestIsGranted, the requester's next request: one that is as it was first made, a bus output write of a
frame in the queue and a measurement write under a MEAS window. -/
theorem test_meets_next_request :
    let e : BusEntry := { frame := 9, samples := MixFrame.empty.outputs, total := 32, presented := 1, completed := 0 }
    let s0 := withWindow 3 (entry 7 0 0x3000000 1 0) (withWindow 6 (entry 4 0 0x6000000 8 0) base)
    let w (p : Purpose) (byte : Nat) : Waiting :=
      { purpose := p, request := { oneWrite with addr := beatOf byte }, ahead := 0, stale := false }
    let s (q : Fin 8) (x : Waiting) (m : Made) : State :=
      ({ s0 with mixer := { s0.mixer with busQueue := [e] } }).setQueue q { waiting := some x, later := [m] }
    ∀ x ∈ [((2 : Fin 8), w (.busWrite 9 0) 0x6000000, ({ purpose := .busWrite 9 1, fixed := none } : Made)),
        (7, w (.measWrite 2 0 false) 0x3000000, { purpose := .measWrite 2 1 false, fixed := none }),
        (7, w (.measWrite 2 0 false) 0x3000000, { purpose := .measWrite 2 1 true, fixed := some oneWrite })],
      let s := s x.1 x.2.1 x.2.2
      s.path.forward = [] ∧ s.isNormal = true ∧ s.eligible (s.path.turn + x.1) = true ∧
        (∀ d : Fin 8, d < x.1 → s.eligible (s.path.turn + d) = false) ∧
        s.passesCheck x.2.1.purpose x.2.1.request = true ∧
        (s.path.queues[x.1]).later = x.2.2 :: [] ∧ (s.ownedWindow .busOut).isSome = true ∧
        (s.ownedWindow .meas).isSome = true ∧ s.mixer.busQueue.find? (fun y => y.frame == 9) = some e := by
  decide +kernel

/-- The state with the record read of the command unit held by tag 64. -/
def withRecordRead (s : State) : State :=
  holding .recordRead { addr := beatOf 0x1000C00, burst := .read 4 } { s with command :=
    { s.command with state := .fetching } }

/-- ResponsesAtThePorts, each clause: a tag outstanding, tags that nothing awaits, a request of the part's own
whose requester or whose path unit has stopped, and an intercepted read behind one of another tag. -/
theorem test_meets_responses :
    (0 < ((outstanding base).path.tags[(9 : Fin 64)]).forwarded) ∧
    ((base.path.tags[(63 : Fin 64)]).forwarded = 0 ∧ base.heldBy 64 = none ∧ base.heldBy 96 = none) ∧
    (let s := withRecordRead (passOnly base);
      s.heldBy 64 ≠ none ∧
        ({ s with command := { s.command with stopped := true } } : State).requesterStopped .recordRead = true ∧
        s.requesterStopped .recordRead = false) ∧
    ∃ s : State, ∃ y x : Intercepted, s.path.intercepted = [y] ++ x :: [] ∧ x.tag = 9 ∧ y.tag ≠ 9 := by
  refine ⟨by decide +kernel, by decide +kernel, by decide +kernel,
    { base with path := { base.path with
        intercepted := [{ tag := 8, beats := [] }, { tag := 9, beats := [0] }] } }, _, _, rfl, rfl, by decide⟩

/-- ResponsesReachTheirRequester: OK and ERROR, in NORMAL mode and before the entry into PASS-ONLY mode. -/
theorem test_meets_requester :
    ∀ s ∈ [withRecordRead base, withRecordRead (passOnly base)],
      ∀ r ∈ [reply true (List.replicate 4 0), reply false []],
        let i : Issued :=
          { purpose := .recordRead, request := { addr := beatOf 0x1000C00, burst := .read 4 }, stale := false }
        s.heldBy r.tag = some (0, i) ∧ r.wellFormed = true ∧ i.fits r = true ∧ s.path.stopped = false ∧
          s.requesterStopped i.purpose = false := by
  decide +kernel

/-- RequestsAreMadeInOrder: a queue with nothing, a queue with a request waiting, and PASS-ONLY mode. -/
theorem test_meets_made :
    (base.isNormal = true ∧ (base.path.queues[reportQueue]).waiting = none ∧
      (base.path.queues[reportQueue]).later = []) ∧
    ((withWaiting 0 base).isNormal = true ∧ ((withWaiting 0 base).path.queues[reportQueue]).waiting.isSome = true) ∧
    (passOnly base).isNormal = false ∧
    (base.command.stopped = false ∧ base.path.queues[commandQueue] = { waiting := none, later := [] }) := by
  decide +kernel

/-- OfferedEventMakesOrJoinsARecord: PASS-ONLY mode before and after the report unit's entry; a pair that
has a record behind another; a pair that has none, with FAULT records at the head. -/
theorem test_meets_offer :
    let s := offer 0 (.reference .locked) (raiseFault .burstSpan (.address 8) base)
    (passOnly s).isNormal = false ∧ (passOnly s).report.stopped = false ∧
      (passOnly s).report.queue = s.report.queue ∧
      (∃ u : State, u.isNormal = false ∧ u.report.stopped = true ∧ u.report.queue = s.report.queue) ∧
      s.isNormal = true ∧ s.report.queue.length = 2 ∧
      (s.report.queue.map Record.pair) = [(10, 0), (7, 0)] := by
  refine ⟨rfl, rfl, rfl, ⟨{ passOnly (offer 0 (.reference .locked) (raiseFault .burstSpan (.address 8) base)) with
    report := { (offer 0 (.reference .locked) (raiseFault .burstSpan (.address 8) base)).report with
      stopped := true } }, rfl, rfl, rfl⟩, ?_⟩
  decide +kernel

/-- ProducerCountIsTaken: 16 pending commands, and one more. -/
theorem test_meets_producer : ∀ v ∈ [(16 : Count16), 17],
    ({ base with command := { Command.reset with inbox := [v] } } : State).command.inbox = v :: [] ∧
      base.command.stopped = false ∧ base.isNormal = true := by
  intro v _; exact ⟨rfl, rfl, rfl⟩

/-- ConsumedCountsAreClamped. -/
theorem test_meets_consumed :
    ({ base with report := { Report.reset with inbox := [5] } } : State).report.inbox = 5 :: [] ∧
      ({ base with label := { Label.reset with inbox := [5] } } : State).label.inbox = 5 :: [] ∧
      base.report.stopped = false ∧ base.label.stopped = false := ⟨rfl, rfl, rfl, rfl⟩

/-- GainValueBecomesTheTarget, at the last index. -/
theorem test_meets_gain :
    ({ base with mixer := { Mixer.reset with gains := [(255, 16384)] } } : State).mixer.gains =
      (255, 16384) :: [] ∧ base.mixer.stopped = false := ⟨rfl, rfl⟩

/-- EveryBlockTakesThePassOnlyEntry. -/
theorem test_meets_entry : base.isNormal = true ∧ (passOnly base).isNormal = false := ⟨rfl, rfl⟩


/-- RecordIsDecodedAndHandedOut: ERROR, an opcode that is none, an object just above its range and one in it. -/
theorem test_meets_record :
    (∀ r ∈ [reply false [], reply true [13, 0, 0, 0], reply true [0x0305, 0, 0, 0], reply true [0x0306, 0, 0, 0]],
      Answers r 0 (held .recordRead (pageRead 4)) (holding .recordRead (pageRead 4) base)) ∧
    base.command.stopped = false ∧ objectLimit 13 = none ∧ objectLimit 5 = some 4 ∧ objectLimit 6 = some 3 := by
  refine ⟨?_, by decide +kernel⟩
  unfold Answers
  decide +kernel

/-- CompletionWriteEndsTheCommand: a first and a second write, answered OK or ERROR. -/
theorem test_meets_completion :
    (∀ r ∈ [reply false [], reply true []], ∀ again ∈ [false, true],
      Answers r 0 (held (.completionWrite again) oneWrite) (holding (.completionWrite again) oneWrite base)) ∧
    base.command.stopped = false := by
  refine ⟨?_, by decide +kernel⟩
  unfold Answers
  decide +kernel

/-- ApplyCommandsMakeTheirReads: the window table, the first and the last group before ROUTES, and ROUTES. -/
theorem test_meets_apply :
    base.command.stopped = false ∧ (handing .applyWindows base).command.handed = some .applyWindows ∧
      (∀ g ∈ [(0 : Fin 10), 8], (handing (.applySettings g) base).command.handed = some (.applySettings g) ∧
        g.val ≠ 9) ∧
      (handing (.applySettings 9) base).command.handed = some (.applySettings 9) := by decide +kernel

/-- A command whose further reads are under way, all but the last returned. -/
def gathering (group : Option (Fin 10)) (before : List (Nat × List Word)) (total : Nat) (s : State) : State :=
  { s with command := { s.command with
      state := .executing, gather := some { group := group, total := total, returned := before, failed := false } } }

/-- The half of a window table in which nothing is enabled, and one whose first entry has a kind that is none. -/
def emptyHalf : List Word := List.replicate 16 0
/-- See `emptyHalf`. -/
def wrongHalf : List Word := [0, 0x0000000900000001] ++ List.replicate 14 0

/-- A half of a window table: the five windows of `ownedState`, each a step further on. -/
def movedHalf : List Word :=
  [0x2001000, 0x0000000600000001, 0x4001000, 0x0000000500000001, 0x6008000, 0x0000000400000008,
   0x3001000, 0x0000000700000001, 0x140002000, 0x0000010300000002] ++ List.replicate 6 0

/-- A closed clip on camera 2, with no hold left. -/
def closedClip : Clip :=
  { id := 1, camera := 2, inTimecode := Timecode.zero, inVideo := 1, inAudio := 40,
    closing := some
      { timecode := Timecode.zero, videoCount := 3, audioCount := 120, hold := 0, ringDone := false
        uplinkDone := true },
    recorded := 2, dropped := 0, good := true, unlocked := false, overwritten := false, peak := none,
    pictures := none, pictureDrops := 0, splitFrom := none, parityBad := false }

/-- The state with some clip in record 31 and in the close-order list, under a LABEL window of one page. -/
def withClip (c : Clip) (s : State) : State :=
  let s := withWindow 4 (entry 5 0 0x4000000 1 0) s
  { s with label := { s.label with clips := s.label.clips.set (31 : Fin 32) (some c), order := [31] } }

/-- The state under a window of each kind that a unit reacts to: a picture in stream 1's queue, a released clip, a
label write issued and one waiting, and a post write issued. -/
def ownedState : State :=
  let s := withClip closedClip (withWindow 15 reportEntry (withWindow 6 (entry 4 0 0x6000000 8 0)
    (withWindow 3 (entry 7 0 0x3000000 1 0) withPicture)))
  let waiting : Waiting := { purpose := .labelWrite false, request := oneWrite, ahead := 0, stale := false }
  { s with path := { s.path with
      pool := (s.path.pool.set (5 : Fin 32) (some (held (.labelWrite false) oneWrite))).set (6 : Fin 32)
        (some (held (.reportPost false) oneWrite))
      queues := s.path.queues.set labelQueue { waiting := some waiting, later := [] } } }

/-- WindowTableIsAppliedOrRefused: an ERROR, a table with a bad entry, a table with nothing enabled, and one that
moves the five windows that units react to. -/
theorem test_meets_table :
    (∀ r ∈ [reply false [], reply true wrongHalf, reply true emptyHalf],
      Answers r 0 (held (.tableRead 1) (pageRead 16))
        (holding (.tableRead 1) (pageRead 16) (gathering none [(0, emptyHalf)] 2 ownedState))) ∧
    Answers (reply true emptyHalf) 0 (held (.tableRead 1) (pageRead 16))
      (holding (.tableRead 1) (pageRead 16) (gathering none [(0, movedHalf)] 2 ownedState)) ∧
    (let s := gathering none [(0, emptyHalf)] 2 ownedState;
      s.command.stopped = false ∧ s.path.stopped = false ∧
        s.command.gather.map (·.returned.length + 1) = some 2) ∧
    firstBadEntry base.controlPage [] (windowTable (bytesOfWords (emptyHalf ++ wrongHalf))).toList = some 8 ∧
    firstBadEntry base.controlPage [] (windowTable (bytesOfWords (emptyHalf ++ emptyHalf))).toList = none ∧
    firstBadEntry base.controlPage [] (windowTable (bytesOfWords (movedHalf ++ emptyHalf))).toList = none := by
  refine ⟨?_, ?_, by decide +kernel⟩ <;> unfold Answers <;> decide +kernel

/-- WindowTableIsAppliedOrRefused and SettingsGroupIsStagedOrRefused: a read that is not the last, OK and ERROR. -/
theorem test_meets_further_reads :
    ∀ r ∈ [reply true emptyHalf, reply false []],
      (let s := gathering none [] 2 base;
        Answers r 0 (held (.tableRead 1) (pageRead 16)) (holding (.tableRead 1) (pageRead 16) s) ∧
          s.command.gather.map (fun g => (g.returned.length + 1, g.total)) = some (1, 2)) ∧
      (let s := gathering (some 9) [(0, emptyHalf)] 16 base;
        Answers r 0 (held (.settingsRead 3) (pageRead 16)) (holding (.settingsRead 3) (pageRead 16) s) ∧
          s.ownerStopped 9 = false ∧
          s.command.gather.map (fun g => (g.returned.length + 1, g.total)) = some (2, 16)) := by
  unfold Answers
  decide +kernel

/-- WindowTableIsAppliedOrRefused: what each unit holds under the old table. -/
theorem test_meets_reactions :
    let s := ownedState
    (s.mixer.stopped = false ∧ s.report.stopped = false ∧ s.label.stopped = false ∧
      s.governor.stopped = false) ∧
    (∀ k ∈ [WindowKind.busOut, .report, .label, .meas], s.ownedWindow k ≠ none) ∧
    (s.codedWindow 1).isSome = true ∧ s.codedWindow 0 = none ∧
    (s.path.pool[(5 : Fin 32)]).map (·.purpose) = some (.labelWrite false) ∧
    (s.path.pool[(6 : Fin 32)]).map (·.purpose) = some (.reportPost false) ∧
    (s.path.queues[labelQueue]).waiting.isSome = true ∧ 31 ∈ s.label.order ∧
    s.label.clips[(31 : Fin 32)] = some closedClip ∧ s.label.inFlight ≠ some (some 31) ∧
    closedClip.closing.map (fun x => (x.hold, x.ringDone, x.uplinkDone)) = some (0, false, true) := by
  decide +kernel

/-- SettingsGroupIsStagedOrRefused: each group, answered ERROR, with data its rule refuses and with data it
admits. -/
theorem test_meets_settings :
    (∀ g ∈ [(0 : Fin 10), 1, 2, 5, 6, 8], ∀ r ∈ [reply false [], reply true (List.replicate 8 0x090909),
        reply true (List.replicate 8 0)],
      let s := gathering (some g) [] 1 base
      Answers r 0 (held (.settingsRead 0) (pageRead 8)) (holding (.settingsRead 0) (pageRead 8) s) ∧
        s.command.stopped = false ∧ s.ownerStopped g = false) ∧
    (let s := gathering (some 9) ((List.range 15).map fun k => (k, emptyHalf)) 16 base;
      (∀ r ∈ [reply true emptyHalf, reply true (0x0000000100100000 :: List.replicate 15 0)],
        Answers r 0 (held (.settingsRead 15) (pageRead 16)) (holding (.settingsRead 15) (pageRead 16) s)) ∧
      s.ownerStopped 9 = false) := by
  unfold Answers
  decide +kernel

/-- JamAndClipMarkAreTaken: a skipped frame, and mark functions 0, 1, 5 and 6. -/
theorem test_meets_jam_and_mark :
    (handing (.jamTimecode 0x00010000) base).command.handed = some (.jamTimecode 0x00010000) ∧
      base.timing.stopped = false ∧ base.label.stopped = false ∧
      ({ base with timing := { base.timing with stopped := true } } : State).label.stopped = false ∧
      ([(0 : BitVec 64), 1, 5, 6].all fun p =>
        (handing (.clipMark 7 p) base).command.handed == some (.clipMark 7 p)) = true := by decide +kernel

/-- A stream whose queue holds a SENDING picture with bytes drained, behind some notices. -/
def flushable (notices : Nat) : State :=
  let p : Picture :=
    { number := 7, start := 0, length := 1000, key := true, timecode := Timecode.zero, unsent := 492
      state := .sending }
  withCoded.setStream 1 { withCoded.stream 1 with
    fill := 492, pictures := [p], notices := List.replicate notices { first := 1, last := 1, isPartial := false } }

/-- StreamFlushEmptiesTheStream: no window, and one with room for a notice and without. -/
theorem test_meets_flush :
    ((handing (.streamFlush 0) base).command.handed = some (.streamFlush 0) ∧ base.codedWindow 0 = none) ∧
    (∀ n ∈ [3, 4], let s := handing (.streamFlush 1) (flushable n);
      s.command.handed = some (.streamFlush 1) ∧ s.governor.stopped = false ∧ s.codedWindow 1 ≠ none ∧
        (s.stream 1).pictures.filter (fun p => p.state != .corrupt) ≠ [] ∧
        ((s.stream 1).notices.length = n)) ∧
    ((flushable 4).stream 1).notices = List.replicate 3 { first := 1, last := 1, isPartial := false } ++
      [{ first := 1, last := 1, isPartial := false }] := by decide +kernel

/-- The state with line 0 in some function state at rate class A. -/
def lineIn (f : FunctionState) (s : State) : State :=
  s.setLine 0 { Line.reset with applied := { LineSettings.reset with rate := .a }, function := f }

/-- A FILL frame of which so many bits have been taken. -/
def someFrame (sent : Nat) : TxFrame :=
  { kind := .fill, last := false, bytes := frameBytes 0 false false false false 0 0 0 0 0 [], sent := sent }

/-- The state with a frame of line 0 in transmission. -/
def sending (sent : Nat) (s : State) : State := s.setLine 0 { s.line 0 with tx := some (someFrame sent) }

/-- The state with line 0's LINE_FUNCTION pair pending. -/
def functionReported (s : State) : State := offer 0 (.lineFunction .started) s

/-- LineFunctionCommandsDecide: each case of LINE_START, LINE_HALT and LINE_CLEAR. -/
theorem test_meets_line_functions :
    let start (s : State) : State := handing (.lineStart 0) s
    let halt (s : State) : State := handing (.lineHalt 0) s
    ((start base).command.handed = some (.lineStart 0) ∧ (base.line 0).stopped = false ∧
      (base.line 0).applied.rate = .off) ∧
    (∀ f ∈ [FunctionState.active, .halting], ((lineIn f base).line 0).applied.rate ≠ .off ∧
      ((lineIn f base).line 0).function = f) ∧
    (∀ f ∈ [FunctionState.idle, .halted], ((lineIn f base).line 0).staged = none ∧
      (start (lineIn f base)).pairPending 0 (.lineFunction .started) = false ∧
      (start (functionReported (lineIn f base))).pairPending 0 (.lineFunction .started) = true) ∧
    ((halt (lineIn .active base)).command.handed = some (.lineHalt 0) ∧
      ((lineIn .active base).line 0).tx = none ∧ ((sending 5 (lineIn .active base)).line 0).tx ≠ none) ∧
    (handing (.lineClear 0) base).command.handed = some (.lineClear 0) ∧ base.isNormal = true ∧
    (∀ j : Fin 32, base.label.clips[j] = none) := by decide +kernel

/-- The state with line 0's send list in some state. -/
def listIn (st : ListState) (s : State) : State :=
  s.setLine 0 { s.line 0 with list := { SendList.reset with
    state := st, current := 0x3000, serial := 1, fetching := if st = .running then some 0 else none } }

/-- SendListAndResumeDecide: addresses off by one beat and past the end, a list attached, and none. -/
theorem test_meets_lists :
    (([(8 : BitVec 64), 0x1000000000, 0xFFFFFFFE0].all fun p => [ListState.none, .running, .held].all fun st =>
      let s := handing (.sendList 0 p) (listIn st base)
      s.command.handed == some (.sendList 0 p) && !(s.line 0).stopped && (s.line 0).list.state == st) = true) ∧
    (∀ st ∈ [ListState.none, .running, .held], (handing (.lineResume 0) (listIn st base)).command.handed =
      some (.lineResume 0)) := by decide +kernel

/-- MeasureCommandsDecide: lengths at both ends of the range, with and without a MEAS window, and each state. -/
theorem test_meets_measure :
    (([(99 : BitVec 64), 100, 60000, 60001].all fun p =>
      (handing (.measureStart p) base).command.handed == some (.measureStart p)) = true) ∧
    (handing .measureStop base).command.handed = some .measureStop ∧ base.isNormal = true ∧
    base.ownedWindow .meas = none ∧ (withWindow 3 (entry 7 0 0x3000000 1 0) base).ownedWindow .meas ≠ none ∧
    base.fault.state = .inactive := by decide +kernel

/-- A record of the report queue. -/
def someRecord : Record :=
  { object := 0, repeats := 1, timecode := Timecode.zero, audioCount := 0, detail := .measure 4 }

/-- PostsArePresentedAtTheWriteSlot: a queue and an empty buffer, a cancelled post, and a released clip; the
rings hold one record less than their size. -/
theorem test_meets_posts :
    (let s : State := { withReport with report := { Report.reset with queue := [someRecord], written := 127 } };
      s.isNormal = true ∧ s.report.stopped = false ∧ s.ownedWindow .report = some reportEntry ∧
        (s.report.written - s.report.consumed).toNat < 128 * reportEntry.size.toNat ∧ s.report.post = none) ∧
    (let s : State := { withReport with report := { Report.reset with
        post := some { record := someRecord, presented := false } } };
      s.report.post.map (·.presented) = some false) ∧
    (let s := withClip closedClip base;
      s.isNormal = true ∧ s.label.stopped = false ∧ s.ownedWindow .label = some (entry 5 0 0x4000000 1 0) ∧
        s.label.inFlight = none ∧ (s.label.written - s.label.consumed).toNat < 64 ∧
        (∀ j : Fin 32, (s.label.clips[j]).all (fun d => d.parityBad == false) = true) ∧
        s.label.order = [] ++ 31 :: [] ∧ s.label.clips[(31 : Fin 32)] = some closedClip ∧
        closedClip.closing.all (fun k => k.ringDone == false && k.hold == 0) = true) := by decide +kernel

/-- R211: a second try of a block write that has not been presented takes its address from the new MEAS window, and one
is kept by a table that leaves the window as it was. -/
theorem test_second_try_takes_the_new_window :
    let again : Made := { purpose := .measWrite 2 1 true, fixed := some oneWrite }
    let s := ownedState.setQueue faultQueue { waiting := none, later := [again] }
    let table (e : WindowEntry) := applyTable (s.path.windows.set (3 : Fin 16) e) s
    ((table (entry 7 0 0x3001000 1 0)).path.queues[faultQueue]).later = [{ again with fixed := none }] ∧
      ((applyTable base.path.windows (withWindow 3 (entry 0 0 0 0 0) s)).path.queues[faultQueue]).later = [again] ∧
      ((table (entry 0 0 0 0 0)).path.queues[faultQueue]).later = [] := by decide +kernel

/-- R126: a label write's response finds a parity error in the record it would set ring done on. -/
theorem test_label_return_finds_bad_parity :
    let s0 := withClip { closedClip with parityBad := true } base
    let s : State := { s0 with label := { s0.label with inFlight := some (some 31), written := 8 } }
    after (exec (.labelWriteReturn (reply true [])) (holding (.labelWrite false) oneWrite s)) (fun t =>
      t.label.clips[(31 : Fin 32)] == none && t.label.order == [] && t.label.written == 9 &&
        (t.fault.classes[(7 : Fin 8)]).latest == .location 2 31) = true := by decide +kernel

/-- WritesReturn: OK and ERROR for a write of each of the four units, the first time and again. -/
theorem test_meets_writes :
    ∀ r ∈ [reply true [], reply false []], ∀ again ∈ [false, true],
      ∀ p ∈ [Purpose.reportPost again, .busWrite 9 31, .measWrite 2 0 again, .labelWrite again],
        let s0 := withClip closedClip base
        let s : State := { s0 with label := { s0.label with inFlight := some (some 31) } }
        Answers r 0 (held p oneWrite) (holding p oneWrite s) ∧ s.label.inFlight = some (some 31) ∧
          s.label.clips[(31 : Fin 32)] = some closedClip := by
  unfold Answers
  decide +kernel

/-- WritesReturn, a label write: of a record that is gone, of one with a parity error, and of an old window, with a
LABEL window and without. -/
theorem test_meets_label_returns :
    let s (c : Clip) (flying : Option (Fin 32)) : State :=
      let s0 := withClip c base
      { s0 with label := { s0.label with inFlight := some flying } }
    let stale (s : State) : State := { s with path := { s.path with
      pool := s.path.pool.set (0 : Fin 32) (some { held (.labelWrite false) oneWrite with stale := true }) } }
    let windowless (s : State) : State := withWindow 4 (entry 0 0 0 0 0) s
    (∀ r ∈ [reply true [], reply false []],
      Answers r 0 (held (.labelWrite true) oneWrite) (holding (.labelWrite true) oneWrite (s closedClip none)) ∧
      Answers r 0 { held (.labelWrite false) oneWrite with stale := true } (stale (s closedClip (some 31))) ∧
      Answers r 0 { held (.labelWrite false) oneWrite with stale := true }
        (stale (windowless (s closedClip (some 31))))) ∧
    (s closedClip none).label.inFlight = some none ∧ (s closedClip (some 31)).label.inFlight = some (some 31) ∧
    ((s closedClip (some 31)).ownedWindow .label).isSome = true ∧
    (windowless (s closedClip (some 31))).ownedWindow .label = none ∧
    (s closedClip (some 31)).label.order = [] ++ 31 :: [] ∧
    closedClip.closing.map (fun x => (x.hold, x.ringDone, x.uplinkDone)) = some (0, false, true) ∧
    ((s { closedClip with parityBad := true } (some 31)).label.clips[(31 : Fin 32)]).map (·.parityBad) =
      some true := by
  unfold Answers
  decide +kernel

/-- The state with a reference in some state at an elapsed count. -/
def refIn (st : RefState) (elapsed freeRun : Nat) (s : State) : State :=
  let x : Reference := { state := st, elapsed := elapsed, freeRun := freeRun, glitches := 0 }
  { s with timing := { s.timing with video := x, audio := x } }

/-- ReferencesFollowPulsesAndTimers, each clause at its threshold for the audio reference. -/
theorem test_meets_references :
    base.timing.stopped = false ∧
    (200000 / 2 ≤ ((refIn .freeRun 100000 0 base).timing.reference .audio).elapsed) ∧
    (((refIn .freeRun 99999 0 base).timing.reference .audio).elapsed < 200000 / 2) ∧
    (∀ st ∈ [RefState.absent, .freeRun, .holdoverExpired],
      let x := (refIn st 200000 9999 base).timing.reference .audio;
      x.state ≠ .locked ∧ 200000 ≤ x.elapsed) ∧
    (let x := (refIn .locked 250000 0 base).timing.reference .audio;
      x.state = .locked ∧ 200000 + 200000 / 4 ≤ x.elapsed) ∧
    (let x := (refIn .locked 249999 0 base).timing.reference .audio;
      x.elapsed < 200000 + 200000 / 4) := by decide +kernel

/-- MarkEdgeFillsItsSlot: 199 and 200 clocks, with the slot EMPTY and FULL, under each selection. -/
theorem test_meets_mark_edge :
    base.timing.stopped = false ∧ base.timing.filtered[(5 : Fin 6)] = false ∧ (199 < 200) ∧ (200 ≤ 200) ∧
    base.timing.selections[(5 : Fin 6)] = .off ∧
    (let t : Timing := { Timing.reset with selections := Vector.replicate 6 .both };
      t.filtered[(5 : Fin 6)] ≠ true ∧ t.selections[(5 : Fin 6)] = .both) := by decide +kernel

/-- An audio and a video boundary. -/
def someAudioBoundary : AudioBoundary := { state := .locked, cause := .pulse, count := 1 }
/-- See `someAudioBoundary`. -/
def someVideoBoundary : VideoBoundary := { state := .freeRun, cause := .timer, timecode := Timecode.zero, count := 1 }

/-- MixerClosesAndOpensAtABoundary: a frame with a saturated output on bus 3, a bad row on bus 4 and a source
without samples, a full queue under a BUS_OUT window, and an OPEN clip whose camera's bus is 3. -/
theorem test_meets_mixer_boundary :
    let f := { (routedMixer.current).setAccumulator 3 0 { value := 0x3FFFFFFFFFFF, parityBad := false } with
      rowBad := routedMixer.current.rowBad.set (4 : Fin 16) true }
    let e : BusEntry :=
      { frame := 3999, samples := MixFrame.empty.outputs, total := 32, presented := 1, completed := 0 }
    let s0 := withClip { closedClip with closing := none, peak := some 0 } (withWindow 6 (entry 4 0 0x6000000 8 0) base)
    let s : State := { s0 with
      mixer := { routedMixer with
        boundaries := [someAudioBoundary], current := f, busQueue := [e, e]
        sources := routedMixer.sources.set (5 : Fin 64) { Source.reset with active := true, idleRun := 0 } }
      label := { s0.label with order := [], applied := { LabelSettings.reset with
        buses := Vector.replicate 8 (some 3) } } }
    s = strikes [] s ∧ s.mixer.boundaries = someAudioBoundary :: [] ∧ s.mixer.stopped = false ∧
    s.isNormal = true ∧ s.label.stopped = false ∧ (s.ownedWindow .busOut).isSome = true ∧
    (∀ j : Fin 32, (s.label.clips[j]).all (fun d => d.parityBad == false) = true) ∧
    s.label.clips[(31 : Fin 32)] = some { closedClip with closing := none, peak := some 0 } ∧
    (∀ bus : Fin 16, (8#16).getLsbD bus.val = decide (s.mixer.current.saturated bus ≠ 0)) ∧
    (∀ x : Fin 64, (32#64).getLsbD x.val = ((s.mixer.sources[x]).active &&
      (s.mixer.current.routes.any fun q => q.record.source == x) &&
      (List.finRange 48).any fun j => !(s.mixer.current.arrivals[x]).getLsbD j.val)) := by
  refine ⟨rfl, rfl, rfl, ?_⟩
  decide +kernel

/-- MixerClosesAndOpensAtABoundary: a bus output queue with room, a BUS_OUT window and no bus write waiting. -/
theorem test_meets_bus_output :
    let e : BusEntry :=
      { frame := 3999, samples := MixFrame.empty.outputs, total := 32, presented := 32, completed := 9 }
    let s0 := withWindow 6 (entry 4 0 0x6000000 8 0) base
    let s : State := { s0 with
      mixer := { routedMixer with boundaries := [someAudioBoundary], busQueue := [e] } }
    s.mixer.boundaries = someAudioBoundary :: [] ∧ s.mixer.stopped = false ∧ s.isNormal = true ∧
    s.ownedWindow .busOut = some (entry 4 0 0x6000000 8 0) ∧ s.mixer.busQueue.length < 2 ∧
    s.path.queues[mixerQueue] = { waiting := none, later := [] } ∧
    (∀ y ∈ s.mixer.busQueue, y.frame ≠ s.mixer.frame) := by
  refine ⟨rfl, rfl, rfl, ?_⟩
  decide +kernel

/-- LabelUnitCountsAndTakesMarks: a boundary with an OPEN clip and no mark, and with slots 0 and 6 FULL; an IN mark
with a record FREE and with none; an OUT mark with the clip OPEN; a GOOD mark on a CLOSED record; and the uplink
head released, held and with a parity error, with a line that carries labels and without. -/
theorem test_meets_label_boundary :
    let s0 := withClip { closedClip with closing := none } base
    let s : State := { s0 with label := { s0.label with order := [], boundaries := [someVideoBoundary] } }
    let m : Capture := { audioCount := 7, overwritten := false, mark := some (.toggle, 2) }
    let marked : State := { s with timing := { s.timing with
      slots := (s.timing.slots.set (0 : Fin 7) (some m)).set (6 : Fin 7) (some m) } }
    let full : State := { base with label := { Label.reset with clips := Vector.replicate 32 (some closedClip) } }
    let owed (hold : Nat) (bad : Bool) : State := withClip { closedClip with
      parityBad := bad
      closing := closedClip.closing.map fun k => { k with hold := hold, uplinkDone := false } } base
    s = strikes [] s ∧ s.label.boundaries = someVideoBoundary :: [] ∧ s.label.stopped = false ∧
    (∀ j : Fin 32, (s.label.clips[j]).all (fun d => d.parityBad == false) = true) ∧
    (∀ i : Fin 7, s.timing.slots[i] = none) ∧ s.timing.stopped = false ∧
    (marked.timing.slots[(0 : Fin 7)] = some m ∧ marked.timing.slots[(6 : Fin 7)] = some m ∧
      marked.label.boundaries = someVideoBoundary :: []) ∧
    s.label.clips[(31 : Fin 32)] = some { closedClip with closing := none } ∧
    s.label.openOf 2 = some 31 ∧
    (s.label.openOf 3 = none ∧ s.label.clips[(0 : Fin 32)] = none) ∧
    (full.label.openOf 3 = none ∧ ∀ j : Fin 32, full.label.clips[j] ≠ none) ∧
    ((owed 1 false).label.openOf 2 = none ∧ (owed 1 false).label.order = [] ++ 31 :: []) ∧
    (∀ hold ∈ [0, 1], ∀ bad : Bool, (owed hold bad).label.stopped = false ∧
      (owed hold bad).label.order = [] ++ 31 :: [] ∧ ((owed hold bad).label.clips[(31 : Fin 32)]).any (fun c =>
        c.parityBad == bad && c.closedWith fun k => k.hold == hold && !k.uplinkDone) = true) ∧
    ((lineIn .active base).line 0).function ≠ .idle := by
  refine ⟨rfl, ?_⟩
  decide +kernel

/-- LabelUnitCountsAndTakesMarks, the ring with no LABEL window: nothing owed; a head released, held, in flight and with
a parity error, with the uplink done and not. -/
theorem test_meets_ring_settle :
    let clip (hold : Nat) (ring uplink bad : Bool) : Clip := { closedClip with
      parityBad := bad
      closing := closedClip.closing.map fun k => { k with hold := hold, ringDone := ring, uplinkDone := uplink } }
    let s (c : Clip) (flying : Option (Option (Fin 32))) : State :=
      let s0 := withWindow 4 (entry 0 0 0 0 0) (withClip c base)
      { s0 with label := { s0.label with inFlight := flying } }
    (∀ c ∈ [clip 0 true false false, clip 0 false true false, clip 0 false false false, clip 1 false true false,
        clip 0 false true true], ∀ f ∈ [none, some (some 31)],
      (s c f).label.stopped = false ∧ (s c f).ownedWindow .label = none ∧ (s c f).label.order = [] ++ 31 :: [] ∧
        (s c f).label.clips[(31 : Fin 32)] = some c ∧ (s c f).label.inFlight = f) ∧
    (clip 0 false true true).closing.map (fun k => (k.hold, k.ringDone, k.uplinkDone)) = some (0, false, true) := by
  decide +kernel

/-- GovernorStepsHintsAtABoundary: no staged copy; one that the fill allows; one that it does not; and a
disabling copy at a fill of 0 and above. -/
theorem test_meets_governor_boundary :
    let g : StreamSettings := { camera := none, capacity := 65536, target := 1, base := 9, step := 2 }
    let x (staged : Option (Option StreamSettings)) (fill : Nat) : Stream :=
      { Stream.reset with applied := some g, staged := staged, fill := fill }
    let s : State := { base with governor := { Governor.reset with boundaries := [someVideoBoundary] } }
    s.governor.boundaries = someVideoBoundary :: [] ∧ s.governor.stopped = false ∧
    ((x none 70000).staged = none ∧ (x none 70000).applied = some g) ∧
    ((x (some (some g)) 65536).staged = some (some g) ∧ (x (some (some g)) 65536).fill ≤ g.capacity) ∧
    g.capacity < (x (some (some g)) 65537).fill ∧
    ((x (some none) 0).staged = some none ∧ (x (some none) 0).fill = 0 ∧ (x (some none) 1).fill ≠ 0) := by
  decide +kernel

/-- The state with an audio boundary handed to line 0. -/
def lineBoundaryState (s : State) : State :=
  s.setLine 0 { s.line 0 with boundaries := [someAudioBoundary] }

/-- LineTakesAnAudioBoundary: a line that starts a frame, and one that has a frame in transmission. -/
theorem test_meets_line_boundary :
    (let s := lineBoundaryState (lineIn .active base);
      (s.line 0).boundaries = someAudioBoundary :: [] ∧ (s.line 0).stopped = false ∧
      (s.line 0).function = .active ∧ (s.line 0).applied.loopback ≠ .remote ∧
      (s.line 0).applied.rate ≠ .off ∧ (s.line 0).tx = none ∧ (s.line 0).staged = none) ∧
    (let s := lineBoundaryState (lineIn .active base);
      let g : LineSettings := { (s.line 0).applied with carriesLabels := true }
      let x := (s.setLine 0 { s.line 0 with staged := some g }).line 0
      x.staged = some g ∧ x.function = .active ∧ g.loopback ≠ .remote ∧ g.rate ≠ .off ∧ x.tx = none) ∧
    ((lineBoundaryState (sending 7 (lineIn .active base))).line 0).tx ≠ none := by decide +kernel

/-- FrameEndStartsTheNextFrame: the 4,224th bit taken, in each function state; the last FILE frame of a list that is
ending; and a piece that ends where the address space does. -/
theorem test_meets_frame_end :
    (∀ f : FunctionState,
      ((sending 4224 (lineIn f base)).line 0).tx = some (someFrame 4224) ∧ 4224 ≤ (someFrame 4224).sent ∧
        ((sending 4224 (lineIn f base)).line 0).stopped = false ∧
        ((sending 4224 (lineIn f base)).line 0).function = f) ∧
    (let s := lineIn .active base;
      let y := (s.setLine 0 { s.line 0 with
        tx := some { someFrame 4224 with kind := .file, last := true }
        list := { SendList.reset with state := .running, ending := true } }).line 0;
      y.tx.map (fun f => (f.kind, f.last)) = some (.file, true) ∧ y.list.ending = true ∧ y.function = .active ∧
        y.applied.loopback ≠ .remote) ∧
    0xFFFFFFFFF + 1 ≤ 2 ^ 36 := by
  refine ⟨fun _ => ⟨rfl, Nat.le_refl _, rfl, rfl⟩, by decide +kernel, by decide⟩

/-- A job of one read of 8 bytes. -/
def someJob (stream : Option (Fin 4)) : ReadJob :=
  { id := 0, stream := stream, serial := 1, lead := 0, length := 8, total := 1, returned := [], failed := false,
    discarded := false }

/-- The state with the job of a frame that waits on line 0, its send list attached. -/
def jobState (j : ReadJob) : State :=
  let s := listIn .running (lineIn .active base)
  s.setLine 0 { s.line 0 with jobs := [j], next := some (Decided.plain .file 0 0 (.waiting 0)) }

/-- PieceReadsSettleTheirFrame: the only read of a LIVE piece, with its claim held, void and gone, and of a FILE
piece, OK and ERROR; and the first of two reads. -/
theorem test_meets_piece :
    (∀ r ∈ [reply true [5], reply false []],
      (∀ claim ∈ [some { picture := 7, length := 8, isVoid := false : Claim },
          some { picture := 7, length := 8, isVoid := true }, none],
        let s0 := holding (.payloadRead 0 0 0) (pageRead 1) (jobState (someJob (some 1)));
        let s := s0.setStream 1 { withPicture.stream 1 with claim := claim };
        Answers r 0 (held (.payloadRead 0 0 0) (pageRead 1)) s ∧ (s.line 0).stopped = false ∧
        (s.line 0).jobs.filter (fun y => y.id == 0) = [someJob (some 1)] ∧ s.governor.stopped = false ∧
        (s.stream 1).claim = claim ∧ (s.line 0).next = some (Decided.plain .file 0 0 (.waiting 0)) ∧
        (someJob (some 1)).total ≤ ((someJob (some 1)).note 0 r).returned.length) ∧
      (let j := { someJob (some 1) with total := 2 };
        let s := holding (.payloadRead 0 0 0) (pageRead 1) (jobState j);
        Answers r 0 (held (.payloadRead 0 0 0) (pageRead 1)) s ∧
        (s.line 0).jobs.filter (fun y => y.id == 0) = [j] ∧ (j.note 0 r).returned.length < j.total) ∧
      (let s := holding (.fileRead 0 0 0) (pageRead 1) (jobState (someJob none));
        Answers r 0 (held (.fileRead 0 0 0) (pageRead 1)) s ∧ (s.line 0).stopped = false ∧
        (s.line 0).jobs.filter (fun y => y.id == 0) = [someJob none] ∧
        (s.line 0).next = some (Decided.plain .file 0 0 (.waiting 0)) ∧
        (s.line 0).list.state ≠ .none ∧ (s.line 0).list.serial = (someJob none).serial)) := by
  unfold Answers
  decide +kernel

/-- DescriptorIsJudged: ERROR, HOLD with a resume pending and without, a length of 0, a valid descriptor of one
byte, and one with address bits above the 36 set, for the fetch awaited; and a fetch no longer awaited. -/
theorem test_meets_descriptor :
    (∀ r ∈ [reply false [], reply true [0, 0x0000000100000001, 0, 0], reply true [0, 0, 0, 0],
        reply true [0, 1, 0, 0],
        reply true [0xFFFFFFFFFFFFFFFF, 1, 0, 0]], ∀ resume : Bool,
      let s0 := holding (.descriptorFetch 0 0) (pageRead 4) (listIn .running base)
      let s := s0.setLine 0 { s0.line 0 with list := { (s0.line 0).list with resumePending := resume } }
      Answers r 0 (held (.descriptorFetch 0 0) (pageRead 4)) s ∧ (s.line 0).stopped = false ∧
        (s.line 0).list.fetching = some 0 ∧ (s.line 0).list.resumePending = resume) ∧
    (let s := holding (.descriptorFetch 0 0) (pageRead 4) (listIn .none base);
      Answers (reply true [0, 1, 0, 0]) 0 (held (.descriptorFetch 0 0) (pageRead 4)) s ∧
        (s.line 0).list.fetching ≠ some 0) := by
  unfold Answers
  decide +kernel

/-- LosAndViolationsAreTaken: a declaration due with LOS clear and declared, and a violation due. -/
theorem test_meets_los :
    let line (los : Bool) : Line :=
      { Line.reset with receiver := { Receiver.reset with losDue := true, los := los, violationsDue := 1 } }
    (line false).receiver.losDue = true ∧ (line false).receiver.los = false ∧ (line true).receiver.los = true ∧
      0 < (line false).receiver.violationsDue ∧ (line false).stopped = false := by decide +kernel

/-- A left fold that looks at its register at every step, so that evaluation keeps it small. -/
def foldNow (reg : BitVec 32) : List Bool → BitVec 32
  | [] => reg
  | b :: bs => if reg.toNat = 0 then foldNow (crcBit reg b) bs else foldNow (crcBit reg b) bs

theorem foldNow_eq (bs : List Bool) (reg : BitVec 32) : bs.foldl crcBit reg = foldNow reg bs := by
  induction bs generalizing reg with
  | nil => rfl
  | cons b bs ih => simp only [List.foldl_cons, foldNow, ite_self]; exact ih _

/-- A FILL frame of line 0 with sequence 0, under a CRC value. -/
def frameUnder (crc : Nat) : List Byte := beBytes 2 0xB52E ++ List.replicate 522 0 ++ beBytes 4 crc

/-- The frame under its CRC is good, and under the value one above it is not. -/
theorem test_good_frame : goodFrame (frameUnder 3743045764) = true ∧ goodFrame (frameUnder 3743045765) = false := by
  simp only [goodFrame, crc32, foldNow_eq]
  decide +kernel

theorem length_lineBits (bs : List Byte) : (lineBits bs).length = 8 * bs.length := by
  induction bs with
  | nil => rfl
  | cons b bs ih =>
    have h : lineBits (b :: bs) = byteBits b ++ lineBits bs := rfl
    rw [h, List.length_append, ih, List.length_cons]
    simp [byteBits]; omega

/-- FramesAreJudged: a receiver that has taken all the bits of a frame, under a right and a wrong CRC. -/
theorem test_meets_frames : ∀ crc ∈ [3743045764, 3743045765], ∀ sync : SyncState,
    let r : Receiver := { Receiver.reset with sync := sync, inFrame := true, bits := lineBits (frameUnder crc) }
    r.sync = sync ∧ r.inFrame = true ∧ 4224 ≤ r.bits.length ∧
      bytesOfBits (r.bits.take 4224) = frameUnder crc := by
  intro crc h sync
  have length : (lineBits (frameUnder crc)).length = 4224 := by
    rw [length_lineBits, frameUnder]; simp only [List.length_append, List.length_replicate]; rfl
  refine ⟨rfl, rfl, Nat.le_of_eq length.symm, ?_⟩
  have whole : (lineBits (frameUnder crc)).take 4224 = lineBits (frameUnder crc) :=
    List.take_of_length_le (Nat.le_of_eq length)
  rw [whole]
  simp only [List.mem_cons, List.not_mem_nil, or_false] at h
  rcases h with rfl | rfl <;> decide +kernel

/-- FramesAreJudged, the search: the sync word one bit on, and no sync word; neither candidate is good. -/
theorem test_meets_search :
    let sync := [true, false, true, true, false, true, false, true,
      false, false, true, false, true, true, true, false]
    let bits := true :: sync ++ List.replicate 4207 false
    (4224 ≤ bits.length ∧ ((bits.drop 1).drop 0).take 16 = sync ∧
      goodFrame (bytesOfBits (bits.take 4224)) = false) ∧
    (∀ p, (((List.replicate 4224 false).drop 1).drop p).take 16 ≠ sync) ∧
    goodFrame (bytesOfBits ((List.replicate 4224 false).take 4224)) = false := by
  refine ⟨by decide +kernel, ?_, by decide +kernel⟩
  intro p h
  have : true ∈ (((List.replicate 4224 false).drop 1).drop p).take 16 := by rw [h]; decide
  have := List.mem_of_mem_drop (List.mem_of_mem_drop (List.mem_of_mem_take this))
  exact absurd (List.eq_of_mem_replicate this) (by decide)

/-- SymbolsAreSentAndReceived: no signal, the hold signal, a frame with one bit left, a retransmitted bit, a symbol
that is late; a receiver at 95 spaces with LOS clear that takes the pair's symbols, one that takes the line's own,
and one that takes none. -/
theorem test_meets_symbols :
    let looped (loopback : Loopback) (f : FunctionState) : Line :=
      let x := (lineIn f base).line 0
      { x with
        applied := { x.applied with loopback := loopback }
        retransmit := [true], looped := [.space]
        coder := { Coder.reset with out := [.space] }
        receiver := { Receiver.reset with los := false, spaces := 95 } }
    (base.line 0).output = .noSignal ∧ ((lineIn .halted base).line 0).output = .hold ∧
    (((sending 4223 (lineIn .active base)).line 0).output = .frame ∧ (someFrame 4223).sent < 4224) ∧
    ((looped .remote .active).output = .retransmission ∧ (looped .remote .active).retransmit = true :: []) ∧
    ((looped .none .halted).coder.out ≠ [] ∧ (looped .none .halted).applied.code.length <
      (looped .none .halted).coder.pending + (looped .none .halted).coder.out.length) ∧
    (base.line 0).applied.rate = .off ∧
    (∀ b ∈ [Loopback.none, .localLoop, .remote], (looped b .idle).applied.rate ≠ .off ∧
      (looped b .idle).stopped = false ∧
      (looped b .idle).applied.loopback = b ∧ (looped b .idle).receiver.los = false ∧
      95 ≤ (looped b .idle).receiver.spaces ∧ (looped b .idle).looped = .space :: []) ∧
    (looped .localLoop .idle).output = .noSignal ∧ (looped .localLoop .halted).output ≠ .noSignal := by
  decide +kernel

/-- SymbolsAreSentAndReceived, the receiver: under Z3 a mark of the last polarity that completes a substitution and one
that does not, and a receiver at 94 spaces and one with LOS declared. -/
theorem test_meets_violations :
    let space : Undecided := { symbol := .space, bit := false }
    let r (us : List Undecided) : Receiver := { Receiver.reset with undecided := us, spaces := 94, los := false }
    (let heard := (r [space, space]).recent ++ (r [space, space]).undecided;
      let before := heard.drop (heard.length - (ZeroRun.z3.length - 1));
      (r [space, space]).lastPositive = false ∧ before.length = ZeroRun.z3.length - 1 ∧
        (∀ u, before.head? = some u → u.symbol = .space ∨ u.bit = true) ∧ ∀ u ∈ before.tail, u.symbol = .space) ∧
    ((r [space]).recent ++ (r [space]).undecided).length ≠ ZeroRun.z3.length - 1 ∧
    (r []).spaces < 95 ∧ Receiver.reset.los = true := by
  refine ⟨⟨rfl, rfl, ?_, by decide +kernel⟩, by decide +kernel, by decide +kernel, rfl⟩
  intro u h
  exact .inl (by simpa [ZeroRun.length, Receiver.reset] using congrArg (Option.map (·.symbol)) h.symm)

/-- SymbolsAreSentAndReceived, the search: under OFF a symbol decides a bit, which completes the sync word after one
bit more, or completes nothing; under Z4 the first symbol decides none. -/
theorem test_meets_bit_search :
    let sync := [true, false, true, true, false, true, false, true,
      false, false, true, false, true, true, true, false]
    let r : Receiver := { Receiver.reset with bits := true :: sync.take 15 }
    let e := (r.decode .off .space).decide .off
    r.inFrame = false ∧ e.1 ≠ [] ∧ ((r.bits ++ e.1).drop 1).take 16 = sync ∧
      (∀ q, q < 1 → ((r.bits ++ e.1).drop q).take 16 ≠ sync) ∧
    (let r' : Receiver := { Receiver.reset with bits := [] };
      let e' := (r'.decode .off .space).decide .off;
      e'.1 ≠ [] ∧ ∀ p, ((r'.bits ++ e'.1).drop p).take 16 ≠ sync) ∧
    ((r.decode .z4 .space).decide .z4).1 = [] := by
  refine ⟨rfl, by decide +kernel, by decide +kernel, by decide +kernel, ⟨by decide +kernel, ?_⟩,
    by decide +kernel⟩
  intro p h
  have := congrArg List.length h
  simp [Receiver.decode, Receiver.decide, ZeroRun.window, ZeroRun.length, Receiver.reset] at this
  omega

/-- LineCodeDecodesWhatItCodes. -/
theorem test_meets_line_code : Coder.reset.pending = 0 ∧ Coder.reset.out = [] ∧ Receiver.reset.undecided = [] ∧
    Receiver.reset.lastPositive = Coder.reset.lastPositive := by decide

/-- LineCodeDecodesWhatItCodes, at the boundary of each clause of one bit: the last zero that stays pending, the one
that completes a run, with either parity, more zeros pending than a run of the code, and a symbol due or not. -/
theorem test_meets_one_bit :
    let c (pending : Nat) (odd : Bool) (out : List Symbol) : Coder :=
      { lastPositive := true, odd := odd, pending := pending, out := out }
    (c 1 true []).take .z3 false = c 2 true [] ∧
      (c 2 true []).take .z3 false = c 0 false [.space, .space, .mark true] ∧
      ((c 2 false []).take .z3 false).out = [.mark false, .space, .mark false] ∧
      ((c 3 false []).take .z3 false).out = [.space, .mark false, .space, .mark false] ∧
      ((c 3 false []).take .z4 false).out = [.mark false, .space, .space, .mark false] ∧
      (c 2 true [.mark true, .space]).emit .z3 = (.mark true, c 2 true [.space]) ∧
      (c 1 true [.mark true, .space]).emit .z3 = (.space, c 1 true [.mark true, .space]) := by decide +kernel

/-- EveryBuiltFrameIsGood, at the longest payload. -/
theorem test_meets_built_frame : 9 < 16 ∧ 65535 < 65536 ∧ (List.replicate 508 (0 : Byte)).length ≤ 508 := by
  decide +kernel

/-- EveryBuiltFrameIsGood, its clause on 528 bytes: the length alone does not make a frame good. -/
theorem test_meets_528_bytes : (List.replicate 528 (0 : Byte)).length = 528 ∧
    goodFrame (List.replicate 528 (0 : Byte)) = false := by decide +kernel

/-- GainsAndOutputsFollowTheArithmetic: ramps both ways, indexes that meet, and an accumulator on a half. -/
theorem test_meets_arithmetic : (47 : Fin 48) ≤ 47 ∧ (0 : BitVec 16).toNat ≤ (65535 : BitVec 16).toNat ∧
    2 * ((8192 : Int) - 16384 * roundOutput 8192).natAbs = 16384 := by decide +kernel

/-- ValidTableKeepsOwnedWindowsApart: a table with two enabled entries, one part-owned, that meet at a page. -/
theorem test_meets_valid_table :
    let table := [entry 6 0 0x2000000 1 0, entry 1 0 0x2001000 1 0]
    firstBadEntry 0x1000000 [] table = none ∧
      (∀ e ∈ table, e.enabled = true) ∧ table[0]?.map (·.kindOf.owned) = some true := by decide +kernel

/-- ValidTableKeepsOwnedWindowsApart, its conditions: each table fails at its last entry, by a row of R11 in turn. -/
theorem test_first_bad_entry :
    ([[entry 8 0 0x2000000 1 0], [entry 2 0 0xFFFFFF000 2 1], [entry 2 0 0x2000800 1 1], [entry 3 4 0x2000000 2 0],
      [entry 6 1 0x2000000 1 0], [entry 1 57 0x2000000 1 0], [entry 2 0 0x2000000 1 0], [entry 2 0 0x2000000 4097 4097],
      [entry 2 0 0x2000000 1 2], [entry 3 0 0x2000000 1 0], [entry 4 0 0x2000000 7 0], [entry 6 0 0x1001000 1 0],
      [entry 1 0 0x2000000 1 0, entry 1 1 0x3000000 1 0], [entry 3 0 0x2000000 2 0, entry 3 0 0x3000000 2 0],
      [entry 7 0 0x2000000 1 0, entry 7 0 0x3000000 1 0],
      [entry 7 0 0x2000000 1 0, entry 1 0 0x2000000 1 0]].map fun table =>
        firstBadEntry 0x1000000 [] table == some (table.length - 1)) = List.replicate 16 true := by decide +kernel

/-- TimecodeStaysValid: a valid timecode for each clause of the advance, and one brought to another rate. -/
theorem test_meets_timecode :
    let t (hh mm ss ff : Nat) : Timecode := { hh := hh, mm := mm, ss := ss, ff := ff }
    (∀ x ∈ [t 0 1 0 28, t 0 1 58 29, t 0 58 59 29, t 22 59 59 29, t 23 59 59 29], x.valid .r30df = true) ∧
      (t 0 1 0 1).valid .r30df = false ∧ (t 0 10 0 1).valid .r30df = true ∧
      (t 0 1 58 29).advance .r30df = t 0 1 59 0 ∧ (t 0 58 59 29).advance .r30df = t 0 59 0 2 := by decide +kernel

/-- MeasurementTimerRunsTheIntervals: each measurement state, and a frame count one below its interval length. -/
theorem test_meets_measurement_timer :
    ∀ st ∈ [MeasurementState.inactive, .starting, .active], ∀ frames ∈ [98, 99],
      let s : State := { base with fault := { FaultUnit.reset with
        boundaries := [someAudioBoundary], state := st, frames := frames } }
      s.fault.boundaries = someAudioBoundary :: [] ∧ s.isNormal = true ∧ s.fault.state = st ∧
        (s.fault.frames + 1 < s.fault.interval ∨ s.fault.interval ≤ s.fault.frames + 1) := by decide +kernel

/-- The invariants hold of the state after reset, and a step from it answers a next state: the hypotheses of
StreamFillIsTheSumOfUnsentBytes, ReportQueueHoldsEachPairOnce, CloseOrderListHoldsTheClosedRecords,
TimecodeStaysValid, AppliedTableStaysValid and PassOnlyLastsUntilReset meet. -/
theorem test_meets_invariants :
    (∃ t, step State.reset = .next t) ∧ (∃ t, step ((passOnly base).withPending [.jamTimecode]) = .next t) ∧
    ((passOnly base).withPending [.jamTimecode]).fault.mode = .passOnly ∧
    (∀ n : Fin 4, (State.reset.stream n).pictures = []) ∧ State.reset.report.queue = [] := by
  refine ⟨⟨_, rfl⟩, ⟨_, rfl⟩, rfl, by decide +kernel, rfl⟩

/-- The state of a part whose blocks have all taken the entry. -/
def allStopped : State :=
  let s := passOnly base
  { s with
    path := { s.path with stopped := true }, command := { s.command with stopped := true },
    report := { s.report with stopped := true }, timing := { s.timing with stopped := true },
    mixer := { s.mixer with stopped := true }, label := { s.label with stopped := true },
    governor := { s.governor with stopped := true },
    lines := Vector.replicate 3 { Line.reset with stopped := true } }

/-- StoppedPartIsFrozen. -/
theorem test_meets_stopped : allStopped.AllStopped ∧ (∀ cpb, Instr.gainFieldWrite ≠ .reset cpb) ∧
    ∃ t, exec .gainFieldWrite allStopped = .next t := by
  refine ⟨?_, by simp, _, rfl⟩
  unfold State.AllStopped
  decide +kernel

/-- OriginatedWritesStayInside: an acceptance that puts a forwarded request on the port, and one that puts a
post write there. -/
theorem test_meets_originated :
    (after (exec (.memoryPortAcceptance 0) (withForward base)) (fun t => t.path.memoryOut.isSome) = true) ∧
    (after (exec (.memoryPortAcceptance 31) (withWaiting 0 withReport))
      (fun t => t.path.memoryOut.map (·.tag) == some 95) = true) := by decide +kernel

end Sys2Proof.Tests
end

section
/-! SUPPORT. The memory path: spanning bursts and part-owned windows (R6, R9). -/

namespace Sys2Proof.Machine

variable {s t u : State}

/-! ## A classified request that makes a fault -/

/-- A nonfatal fault of a request that is forwarded in NORMAL mode. -/
theorem raiseFault_forwarded (c : FaultClass) {r : Request} (h : Classified r s) :
    raiseFault c (failAt r.addr) (forwardRequest r s) =
      faultedState c.object (requestAddress r) (forwardedState r s) := by
  obtain ⟨normal, free, _⟩ := h
  have normal' : (forwardedState r s).isNormal = true := normal
  rw [forwardRequest_of_tagFree free, raiseFault_of_normal _ _ normal']
  rfl

/-- The first test of R7. -/
theorem classify_of_spans {r : Request} (h : requestSpans r = true) :
    classify r s = raiseFault .burstSpan (failAt r.addr) (forwardRequest r s) := by
  simp only [classify, h, if_true]

/-- Only a CODED window answers a read itself (R6, R14). -/
theorem windowRead_of_owned {w : WindowEntry} (h : w.kindOf.owned = true) (r : Request) (n : Nat) (s : State) :
    windowRead w r n s = forwardRequest r s := by
  unfold windowRead
  split
  next coded _ =>
    rw [coded] at h
    cases h
  next => rfl

theorem windowWrite_of_owned {w : WindowEntry} (h : w.kindOf.owned = true) (r : Request) (beats : List Beat)
    (s : State) :
    windowWrite w r beats s = raiseFault .ownedWrite (failAt r.addr) (forwardRequest r s) := by
  unfold windowWrite
  revert h
  cases w.kindOf <;> intro h
  case none | audioIn | picture | coded => cases h
  case busOut | label | report | meas => rfl

theorem classifyWindow_of_read {r : Request} {w : WindowEntry} {n : Nat} (hw : s.windowOf r = some w)
    (hb : r.burst = .read n) : classifyWindow r s = windowRead w r n s := by
  simp only [classifyWindow, hw, hb]

theorem classifyWindow_of_write {r : Request} {w : WindowEntry} {beats : List Beat}
    (hw : s.windowOf r = some w) (hb : r.burst = .write beats) :
    classifyWindow r s = windowWrite w r beats s := by
  simp only [classifyWindow, hw, hb]

/-! ## What classification alone changes -/

/-- The OWNED_WRITE class and all that the taps of R5 and R14 change stand as they were. -/
structure TapsSame (s t : State) : Prop where
  ownedWrite : t.fault.classes[(2 : Fin 8)] = s.fault.classes[(2 : Fin 8)]
  governor : t.governor = s.governor
  sources : t.mixer.sources = s.mixer.sources
  current : t.mixer.current = s.mixer.current
  cameras : t.label.cameras = s.label.cameras

theorem TapsSame.refl : TapsSame s s := ⟨rfl, rfl, rfl, rfl, rfl⟩

theorem TapsSame.trans (h : TapsSame s t) (k : TapsSame t u) : TapsSame s u where
  ownedWrite := k.ownedWrite.trans h.ownedWrite
  governor := k.governor.trans h.governor
  sources := k.sources.trans h.sources
  current := k.current.trans h.current
  cameras := k.cameras.trans h.cameras

/-- A last operation, after others. -/
theorem TapsSame.after (k : TapsSame t u) (h : TapsSame s t) : TapsSame s u := h.trans k

/-- The blocks outside the taps. -/
theorem TapsSame.of_changes (h : ChangesOnly [.path, .command, .report] s t) : TapsSame s t where
  ownedWrite := by rw [h.fault]
  governor := h.governor
  sources := by rw [h.mixer]
  current := by rw [h.mixer]
  cameras := by rw [h.label]

theorem setLabel_tapsSame {x : Label} (h : x.cameras = s.label.cameras) : TapsSame s (s.setLabel x) :=
  ⟨rfl, rfl, rfl, rfl, h⟩

theorem setFault_tapsSame {x : FaultUnit} (h : x.classes = s.fault.classes) : TapsSame s (s.setFault x) where
  ownedWrite := by rw [State.setFault_fault, h]
  governor := rfl
  sources := rfl
  current := rfl
  cameras := rfl

/-- A nonfatal fault of another class. -/
theorem raiseFault_tapsSame {c : FaultClass} (h : c.object ≠ 2) (a : FailAddress) (s : State) :
    TapsSame s (raiseFault c a s) := by
  cases n : s.isNormal with
  | false =>
    rw [raiseFault_of_passOnly c a n]
    exact .refl
  | true =>
    rw [raiseFault_of_normal c a n]
    have other : (c.object : Nat) ≠ (2 : Fin 8) := fun e => h (Fin.ext e)
    exact ⟨Vector.getElem_set_ne c.object.isLt (2 : Fin 8).isLt other, rfl, rfl, rfl, rfl⟩

/-! ## Requests made and presented -/

theorem notePresented_tapsSame (m : Made) (s : State) : TapsSame s (notePresented m s) := by
  rw [notePresented_eq]
  exact ⟨rfl, rfl, rfl, rfl, rfl⟩

theorem presentNext_tapsSame (q : Fin 8) (s : State) : TapsSame s (presentNext q s) := by
  have queued (x : RequestQueue) : TapsSame s (s.setQueue q x) :=
    .of_changes ((s.setQueue_changes q x).mono (by decide))
  rcases presentNext_cases q s with h | ⟨m, rest, _, _, _, ⟨r, _, h⟩ | ⟨_, h⟩⟩ <;> rw [h]
  · exact .refl
  · exact (queued _).trans (notePresented_tapsSame ..)
  · exact queued _

theorem makeRequest_tapsSame (q : Fin 8) (m : Made) (s : State) : TapsSame s (makeRequest q m s) := by
  rw [makeRequest_eq]
  exact ⟨rfl, rfl, rfl, rfl, rfl⟩

/-! ## The reactions to a cancelled write -/

theorem busWriteDone_tapsSame (frame : Count32) (s : State) : TapsSame s (busWriteDone frame s) :=
  ⟨rfl, rfl, rfl, rfl, rfl⟩

theorem dropBadClip_tapsSame (i : Fin 32) (s : State) : TapsSame s (dropBadClip i s) := by
  unfold dropBadClip
  have other : FaultClass.internalParity.object ≠ 2 := by decide
  exact (raiseFault_tapsSame other ..).after (setLabel_tapsSame rfl)

theorem markPosted_tapsSame (i : Fin 32) (f : Closing → Closing) (s : State) :
    TapsSame s (markPosted i f s) := by
  unfold markPosted
  split
  · dsimp only
    split
    · exact setLabel_tapsSame rfl
    · exact setLabel_tapsSame rfl
  · exact .refl

theorem uplinkOnce_tapsSame (s : State) : TapsSame s (uplinkOnce s).1 := by
  unfold uplinkOnce
  split
  · exact .refl
  split
  · exact .refl
  split
  · exact dropBadClip_tapsSame ..
  split
  · exact .refl
  split
  · split
    · exact (markPosted_tapsSame ..).after (setLabel_tapsSame rfl)
    · exact .refl
  · exact markPosted_tapsSame ..

theorem ringOnce_tapsSame (s : State) : TapsSame s (ringOnce s).1 := by
  unfold ringOnce
  split
  · exact .refl
  split
  · exact .refl
  split
  · exact dropBadClip_tapsSame ..
  split
  · exact markPosted_tapsSame ..
  · exact .refl

theorem uplinkSettle_tapsSame (s : State) : TapsSame s (uplinkSettle s) := by
  unfold uplinkSettle
  split
  · exact .refl
  · exact settle_induction _ (fun _ => .refl) uplinkOnce_tapsSame .trans ..

theorem ringSettle_tapsSame (s : State) : TapsSame s (ringSettle s) := by
  unfold ringSettle
  split
  · exact .refl
  split
  · exact .refl
  · exact settle_induction _ (fun _ => .refl) ringOnce_tapsSame .trans ..

theorem labelLanded_tapsSame (s : State) : TapsSame s (labelLanded s) :=
  (uplinkSettle_tapsSame _).after ((ringSettle_tapsSame _).after (setLabel_tapsSame rfl))

theorem settleIntervals_tapsSame (s : State) : TapsSame s (settleIntervals s) := by
  have settled : ChangesOnly [.report] s (s.fault.writes.foldl settleInterval s) :=
    ChangesOnly.foldl _ settleInterval_changes ..
  refine TapsSame.after (setFault_tapsSame ?_) (.of_changes (settled.mono (by decide)))
  rfl

theorem blockCancelled_tapsSame (n : Nat) (l : LineId) (again : Bool) (s : State) :
    TapsSame s (blockCancelled n l again s) := by
  unfold blockCancelled blockDone
  split
  · exact makeRequest_tapsSame ..
  · exact (settleIntervals_tapsSame _).after (setFault_tapsSame rfl)

theorem fetchCommand_tapsSame (s : State) : TapsSame s (fetchCommand s) := by
  unfold fetchCommand
  dsimp only
  split
  · exact (makeRequest_tapsSame ..).after ⟨rfl, rfl, rfl, rfl, rfl⟩
  · exact .refl

theorem finishCommand_tapsSame (s : State) : TapsSame s (finishCommand s) :=
  (fetchCommand_tapsSame _).after ⟨rfl, rfl, rfl, rfl, rfl⟩

theorem cancelled_tapsSame (p : Purpose) (s : State) : TapsSame s (cancelled p s) := by
  cases p with
  | reportPost => exact .of_changes ((postCancelled_changes s).mono (by decide))
  | busWrite => exact busWriteDone_tapsSame ..
  | labelWrite => exact labelLanded_tapsSame s
  | measWrite => exact blockCancelled_tapsSame ..
  | completionWrite => exact finishCommand_tapsSame s
  | recordRead | tableRead | settingsRead | payloadRead | fileRead | descriptorFetch => exact .refl

/-! ## The arbiter -/

theorem passTurn_tapsSame (q : Fin 8) (s : State) : TapsSame s (passTurn q s) :=
  .of_changes ((passTurn_changes q s).mono (by decide))

theorem issue_tapsSame (q : Fin 8) (k : Fin 32) (w : Waiting) (s : State) : TapsSame s (issue q k w s) := by
  unfold issue
  have tagged (t : State) (x : Path) : TapsSame t (t.setPath x) :=
    .of_changes ((t.setPath_changes x).mono (by decide))
  exact (passTurn_tapsSame q s).trans ((tagged _ _).trans (presentNext_tapsSame ..))

theorem cancelWaiting_tapsSame (q : Fin 8) (w : Waiting) (s : State) : TapsSame s (cancelWaiting q w s) := by
  unfold cancelWaiting
  exact (passTurn_tapsSame q s).trans ((cancelled_tapsSame ..).trans (presentNext_tapsSame ..))

theorem grantInternal_tapsSame (q : Fin 8) (pick : BitVec 5) (s : State) :
    TapsSame s (grantInternal q pick s).1 := by
  unfold grantInternal
  split
  · split
    · exact issue_tapsSame ..
    · exact cancelWaiting_tapsSame ..
  · exact .refl

/-- What holds of a grant to a requester, of a forwarded grant and of a change of the lockout count holds of an
acceptance. -/
theorem arbitrate_induction {motive : State → State → Prop} (pick : BitVec 5)
    (refl : ∀ s, motive s s) (trans : ∀ {s t u}, motive s t → motive t u → motive s u)
    (internal : ∀ q s, motive s (grantInternal q pick s).1)
    (forwarded : ∀ r rest s, motive s (grantForwarded r rest s))
    (lockout : ∀ n s, motive s (setLockout n s)) (n : Nat) (s : State) : motive s (arbitrate pick n s) := by
  induction n generalizing s with
  | zero => exact refl s
  | succ n ih =>
    have again (q : Fin 8) : motive s (match grantInternal q pick s with
        | (s', true) => arbitrate pick n s'
        | (s', false) => s') := by
      have granted := internal q s
      split <;> rename_i e <;> rw [e] at granted
      · exact trans granted (ih _)
      · exact granted
    unfold arbitrate
    split
    · split
      · exact again _
      · exact trans (forwarded ..) (lockout ..)
    · exact again _
    · exact trans (forwarded ..) (lockout ..)
    · exact lockout ..

theorem arbitrate_tapsSame (pick : BitVec 5) (n : Nat) (s : State) : TapsSame s (arbitrate pick n s) :=
  arbitrate_induction pick (fun _ => .refl) .trans (fun q s => grantInternal_tapsSame q pick s)
    (fun r rest s => .of_changes ((grantForwarded_changes r rest s).mono (by decide)))
    (fun n s => .of_changes ((setLockout_changes n s).mono (by decide))) n s

theorem memoryPortAcceptance_tapsSame {pick : BitVec 5} (h : exec (.memoryPortAcceptance pick) s = .next t) :
    TapsSame s t := by
  cases h
  have cleared : TapsSame s (s.setPath { s.path with memoryOut := none }) :=
    .of_changes ((State.setPath_changes ..).mono (by decide))
  exact cleared.trans (arbitrate_tapsSame ..)

end Sys2Proof.Machine

open Sys2Proof Sys2Proof.Machine

/-- Settles O8: a read reaches no tap and a write only the fault, whichever part-owned kind the window has; and an
acceptance goes through the reactions to cancelled writes, none of which taps or classifies. -/
theorem ownedWindowRequestsAreForwarded : Obligations.OwnedWindowRequestsAreForwarded := by
  refine ⟨?_, ?_⟩
  · intro r us s₀ s w arrives classified window owned
    have ⟨_, _, hw⟩ := window
    have ⟨_, free, _⟩ := classified
    have arrived : exec (.fabricRequest r us) s₀ = .next (classifyWindow r s) := by
      rw [exec_fabricRequest_of_arrives arrives, arrive_of_classified classified, classify_of_windowIs window]
    refine ⟨?_, ?_⟩
    · rintro ⟨n, hb⟩
      rw [arrived, classifyWindow_of_read hw hb, windowRead_of_owned owned,
        forwardRequest_of_tagFree free]
    · rintro ⟨beats, hb⟩
      rw [arrived, classifyWindow_of_write hw hb, windowWrite_of_owned owned,
        raiseFault_forwarded .ownedWrite classified]
      rfl
  · intro pick s t h
    obtain ⟨ownedWrite, governor, sources, current, cameras⟩ := memoryPortAcceptance_tapsSame h
    exact ⟨ownedWrite, governor, sources, current, cameras⟩

/-- Settles O4: a spanning burst is judged before the control page and the windows are looked at (R7). -/
theorem spanningBurstIsForwardedWithFault : Obligations.SpanningBurstIsForwardedWithFault := by
  intro r us s₀ s arrives classified spans
  rw [exec_fabricRequest_of_arrives arrives, arrive_of_classified classified, classify_of_spans spans,
    raiseFault_forwarded .burstSpan classified]
  rfl

end

section
/-! SUPPORT. Values handed over by the path unit: the producer count and the consumed counts (R22, R23, R35, R123). -/

namespace Sys2Proof.Machine

variable {s : State}

/-! ## The producer count (R22) -/

/-- Both cases of a taken producer count in NORMAL mode. -/
theorem takeProducer_of_normal (v : Count16) (n : s.isNormal = true) :
    takeProducer v s =
      if (v - s.command.consumer).toNat ≤ 16 then { s with command := { s.command with producer := v } }
      else faultedState 3 (.address (BitVec.ofNat 36 (s.controlPage + 0x0E00)))
        { s with command := { s.command with producer := v, consumer := v - 16 } } := by
  by_cases fits : (v - s.command.consumer).toNat ≤ 16
  · rw [if_pos fits]
    exact if_pos fits
  · rw [if_neg fits]
    refine (if_neg fits).trans ?_
    exact raiseFault_of_normal .cmdOverrun s.producerWord (by exact n)

/-- What a taken producer count leaves of the command unit: only the consumer count may change with it. -/
theorem takeProducer_command (v : Count16) (s : State) :
    (takeProducer v s).command =
      { s.command with producer := v, consumer := (takeProducer v s).command.consumer } := by
  unfold takeProducer
  split
  · rfl
  · rw [(raiseFault_changes ..).command]

/-! ## The fetch (R23) -/

/-- The read of the record at the consumer count, presented in IDLE with different counts. -/
theorem fetchCommand_of_ready (idle : s.command.state = .idle)
    (different : s.command.producer ≠ s.command.consumer) (running : s.command.stopped = false) :
    fetchCommand s = makeRequest commandQueue
      { purpose := .recordRead
        fixed := some (readAt (s.controlPage + 0x0C00 + 32 * (s.command.consumer.toNat % 16)) 4) }
      { s with command := { s.command with state := .fetching, executing := s.command.consumer } } :=
  if_pos ⟨idle, different, running⟩

theorem fetchCommand_of_not_ready
    (h : ¬ (s.command.state = .idle ∧ s.command.producer ≠ s.command.consumer)) : fetchCommand s = s :=
  if_neg fun ⟨idle, different, _⟩ => h ⟨idle, different⟩

theorem exec_producerCountWrite_of_running {v : Count16} {rest : List Count16}
    (inbox : s.command.inbox = v :: rest) (running : s.command.stopped = false) :
    exec .producerCountWrite s =
      .next (fetchCommand (takeProducer v { s with command := { s.command with inbox := rest } })) := by
  change execProducerCountWrite s = _
  simp only [execProducerCountWrite, inbox, running, Bool.false_eq_true, if_false]

/-! ## The consumed counts (R35, R123) -/

/-- R123 clamps as R35 does. -/
theorem clampLabelConsumed_eq_clampConsumed : clampLabelConsumed = clampConsumed := rfl

theorem exec_reportConsumedCountWrite_of_running {v : Count16} {rest : List Count16}
    (inbox : s.report.inbox = v :: rest) (running : s.report.stopped = false) :
    exec .reportConsumedCountWrite s = .next { s with report := { s.report with
      inbox := rest
      consumed := clampConsumed s.report.written v s.reportLimit } } := by
  change execReportConsumedCountWrite s = _
  simp only [execReportConsumedCountWrite, inbox, running, Bool.false_eq_true, if_false]
  rfl

theorem exec_labelConsumedCountWrite_of_running {v : Count16} {rest : List Count16}
    (inbox : s.label.inbox = v :: rest) (running : s.label.stopped = false) :
    exec .labelConsumedCountWrite s = .next { s with label := { s.label with
      inbox := rest
      consumed := clampConsumed s.label.written v s.labelLimit } } := by
  change execLabelConsumedCountWrite s = _
  simp only [execLabelConsumedCountWrite, inbox, State.setLabel_label, running, Bool.false_eq_true, if_false,
    clampLabelConsumed_eq_clampConsumed]
  rfl

end Sys2Proof.Machine

open Sys2Proof Sys2Proof.Machine

/-- Settles O19: the statement's first state is `takeProducer`'s, in which the producer count is the value and the
command unit is as idle and as running as before; the fetch then decides on the two counts. -/
theorem producerCountIsTaken : Obligations.ProducerCountIsTaken := by
  intro v rest s inbox running normal taken read
  have taken_eq : takeProducer v { s with command := { s.command with inbox := rest } } = taken :=
    takeProducer_of_normal v normal
  have command : taken.command =
      { s.command with inbox := rest, producer := v, consumer := taken.command.consumer } := by
    rw [← taken_eq]
    exact takeProducer_command ..
  have page : taken.controlPage = s.controlPage := by
    rw [← taken_eq]
    exact congrArg (2 ^ 24 * ·.cpb.toNat) (takeProducer_changes ..).path
  have state : taken.command.state = s.command.state := by rw [command]
  have producer : taken.command.producer = v := by rw [command]
  have stopped : taken.command.stopped = false := by rw [command, running]
  rw [exec_producerCountWrite_of_running inbox running, taken_eq]
  by_cases ready : s.command.state = .idle ∧ v ≠ taken.command.consumer
  · have ⟨idle, different⟩ := ready
    rw [if_pos ready, fetchCommand_of_ready (state.trans idle) (producer ▸ different) stopped, page]
    rfl
  · rw [if_neg ready, fetchCommand_of_not_ready (by rwa [state, producer])]

/-- Settles O20: both units clamp by the same table, each against its own written count and limit. -/
theorem consumedCountsAreClamped : Obligations.ConsumedCountsAreClamped := by
  intro v rest s
  refine ⟨?report, ?label⟩
  case report =>
    intro inbox running
    exact exec_reportConsumedCountWrite_of_running inbox running
  case label =>
    intro inbox running
    exact exec_labelConsumedCountWrite_of_running inbox running

end

section
/-! SUPPORT. The timing unit: what a pulse or a timer does to its reference, and what an edge does to its capture
slot (R44-R48, R50-R52, R58, R59). -/

namespace Sys2Proof.Machine

variable {s t u : State}

/-! ## A boundary, and the event that follows it -/

/-- A reference changes and its boundary is counted and handed out. -/
theorem boundary_made (r : Ref) (cause : BoundaryCause) (x : Reference) (s : State) :
    BoundaryMade r x.state cause s (boundary r cause (s.setReference r x)) := by
  cases r with
  | video =>
    exact ⟨rfl, rfl, rfl, rfl, rfl, rfl, rfl, rfl, rfl,
      (s.setReference_changes .video x).comp (videoBoundary_changes cause _)⟩
  | audio =>
    exact ⟨rfl, rfl, rfl, rfl, rfl, rfl, rfl, rfl, rfl, fun l => mapTable_get _ _ l,
      (s.setReference_changes .audio x).comp (audioBoundary_changes cause _)⟩

/-- A boundary leaves both references as they are. -/
theorem boundary_reference (r q : Ref) (cause : BoundaryCause) (s : State) :
    (boundary r cause s).timing.reference q = s.timing.reference q := by
  cases r <;> cases q <;> rfl

@[simp] theorem Timing.setReference_reference_same (t : Timing) (r : Ref) (x : Reference) :
    (t.setReference r x).reference r = x := by
  cases r <;> rfl

/-- What follows a boundary in the report unit does not touch what the boundary did. -/
theorem BoundaryMade.of_reported {r : Ref} {st : RefState} {cause : BoundaryCause}
    (h : BoundaryMade r st cause s t) (k : ChangesOnly [.report] t u) : BoundaryMade r st cause s u := by
  have line (l : LineId) : u.line l = t.line l := by rw [State.line, k.lines]; rfl
  cases r with
  | video =>
    obtain ⟨video, audio, timecode, rate, staged, jam, other, label, governor, frame⟩ := h
    rw [← k.timing] at video audio timecode rate staged jam other
    exact ⟨video, audio, timecode, rate, staged, jam, other, k.label.trans label, k.governor.trans governor,
      k.after frame⟩
  | audio =>
    obtain ⟨audio, video, timecode, rate, staged, jam, other, mixer, fault, lines, frame⟩ := h
    rw [← k.timing] at audio video timecode rate staged jam other
    exact ⟨audio, video, timecode, rate, staged, jam, other, k.mixer.trans mixer, k.fault.trans fault,
      fun l => (line l).trans (lines l), k.after frame⟩

/-- What an offer leaves in the report unit. -/
theorem offer_report (object : Nat) (d : Detail) (s : State) :
    (offer object d s).report = if s.takesOffer object d then
      { s.report with queue := takeEvent (s.firstRecord object d) s.report.queue } else s.report :=
  apply_ite State.report ..

/-- A REFERENCE event at a state whose mode and reports are those of s (R48). -/
theorem referenceEvent_reported (r : Ref) (st : RefState) (normal : t.isNormal = s.isNormal)
    (report : t.report = s.report) : ReferenceReported r (some st) s (referenceEvent r st t) := by
  have pair : (fun y : Record => y.detail.kind == (Detail.reference st).kind && y.object == refObject r) =
      Record.ofPair (refObject r) (.reference st) := funext fun _ => Bool.and_comm ..
  have offered := offer_report (refObject r) (.reference st) t
  rw [State.takesOffer, normal, report, ← pair] at offered
  unfold ReferenceReported
  dsimp only
  rw [(referenceEvent_changes r st t).timing]
  cases r <;> exact offered

/-! ## The events of the reference state machine -/

/-- The REFERENCE event of a change, where it has one. -/
def reportChange (r : Ref) (event : Option RefState) (s : State) : State :=
  match event with
  | some st => referenceEvent r st s
  | none => s

/-- A reference takes a new value, makes a boundary and reports: what each accepted event of R44, R46 and R47 does. -/
def takeBoundary (r : Ref) (cause : BoundaryCause) (x : Reference) (event : Option RefState) (s : State) : State :=
  reportChange r event (boundary r cause (s.setReference r x))

theorem reportChange_changes (r : Ref) (event : Option RefState) (s : State) :
    ChangesOnly [.report] s (reportChange r event s) := by
  cases event with
  | some st => exact referenceEvent_changes r st s
  | none => exact .refl

theorem takeBoundary_made (r : Ref) (cause : BoundaryCause) (x : Reference) (event : Option RefState) (s : State) :
    BoundaryMade r x.state cause s (takeBoundary r cause x event s) :=
  (boundary_made r cause x s).of_reported (reportChange_changes ..)

theorem takeBoundary_reference (r : Ref) (cause : BoundaryCause) (x : Reference) (event : Option RefState)
    (s : State) : (takeBoundary r cause x event s).timing.reference r = x := by
  rw [takeBoundary, (reportChange_changes ..).timing, boundary_reference, State.setReference_timing,
    Timing.setReference_reference_same]

theorem takeBoundary_reported (r : Ref) (cause : BoundaryCause) (x : Reference) (event : Option RefState)
    (s : State) : ReferenceReported r event s (takeBoundary r cause x event s) := by
  have report : (boundary r cause (s.setReference r x)).report = s.report := (boundary_changes ..).report
  cases event with
  | some st =>
    refine referenceEvent_reported r st ?_ report
    cases r <;> rfl
  | none => exact report

/-- R44: the restored event is offered on leaving FREE_RUN or HOLDOVER_EXPIRED. -/
theorem acceptPulse_eq (r : Ref) (s : State) :
    let x := s.timing.reference r
    acceptPulse r s = takeBoundary r .pulse
      { state := .locked, elapsed := 0, freeRun := 0, glitches := x.glitches }
      (if x.state = .freeRun ∨ x.state = .holdoverExpired then some .locked else none) s := by
  intro x
  cases h : (s.timing.reference r).state <;> simp [acceptPulse, takeBoundary, reportChange, x, h]

/-- R46 in FREE_RUN: the boundary counts, and at the limit the state moves and is reported. -/
theorem freeRunExpiry_of_freeRun {r : Ref} (h : (s.timing.reference r).state = .freeRun) :
    let x := s.timing.reference r
    freeRunExpiry r s = takeBoundary r .timer
      { state := if holdoverLimit r ≤ x.freeRun + 1 then .holdoverExpired else .freeRun, elapsed := 0,
        freeRun := x.freeRun + 1, glitches := x.glitches }
      (if holdoverLimit r ≤ x.freeRun + 1 then some .holdoverExpired else none) s := by
  intro x
  by_cases limit : holdoverLimit r ≤ x.freeRun + 1 <;>
    simp only [freeRunExpiry, takeBoundary, reportChange, x, h, limit, if_true, if_false]

/-- R46 in ABSENT and HOLDOVER_EXPIRED: a boundary and nothing else. -/
theorem freeRunExpiry_of_not_counting {r : Ref} (locked : (s.timing.reference r).state ≠ .locked)
    (counting : (s.timing.reference r).state ≠ .freeRun) :
    freeRunExpiry r s = takeBoundary r .timer { s.timing.reference r with elapsed := 0 } none s := by
  cases h : (s.timing.reference r).state with
  | locked => exact absurd h locked
  | freeRun => exact absurd h counting
  | absent => simp only [freeRunExpiry, h, takeBoundary, reportChange]
  | holdoverExpired => simp only [freeRunExpiry, h, takeBoundary, reportChange]

/-- R47: the loss is a boundary, FREE_RUN and its event. -/
theorem lossExpiry_eq (r : Ref) (s : State) :
    lossExpiry r s = takeBoundary r .timer
      { state := .freeRun, elapsed := 0, freeRun := 0, glitches := (s.timing.reference r).glitches }
      (some .freeRun) s := rfl

/-! ## The commands of a running timing unit -/

theorem exec_referencePulse_of_accepted {r : Ref} (running : s.timing.stopped = false)
    (h : s.timing.acceptance r ≤ (s.timing.reference r).elapsed) :
    exec (.referencePulse r) s = .next (acceptPulse r s) := by
  change execReferencePulse r s = _
  simp only [execReferencePulse, running, h, Bool.false_eq_true, if_false, if_true]

theorem exec_referencePulse_of_rejected {r : Ref} (running : s.timing.stopped = false)
    (h : (s.timing.reference r).elapsed < s.timing.acceptance r) :
    exec (.referencePulse r) s = .next (rejectPulse r s) := by
  change execReferencePulse r s = _
  simp only [execReferencePulse, running, Nat.not_le.2 h, Bool.false_eq_true, if_false]

theorem exec_freeRunTimer_of_due {r : Ref} (running : s.timing.stopped = false)
    (locked : (s.timing.reference r).state ≠ .locked)
    (h : s.timing.period r ≤ (s.timing.reference r).elapsed) :
    exec (.freeRunTimer r) s = .next (freeRunExpiry r s) := by
  change execFreeRunTimer r s = _
  rw [execFreeRunTimer, running, if_neg Bool.false_ne_true, if_pos ⟨locked, h⟩]

theorem exec_lossTimer_of_due {r : Ref} (running : s.timing.stopped = false)
    (locked : (s.timing.reference r).state = .locked)
    (h : s.timing.lossThreshold r ≤ (s.timing.reference r).elapsed) :
    exec (.lossTimer r) s = .next (lossExpiry r s) := by
  change execLossTimer r s = _
  rw [execLossTimer, running, if_neg Bool.false_ne_true, if_pos ⟨locked, h⟩]

/-! ## Mark edges (R58, R59) -/

/-- The level stands, or its change is shorter than the filter. -/
theorem exec_markEdge_of_filtered {k : Fin 6} {high : Bool} {clocks : Nat} (running : s.timing.stopped = false)
    (h : s.timing.filtered[k] = high ∨ clocks < 200) : exec (.markEdge k high clocks) s = .next s := by
  change execMarkEdge k high clocks s = _
  rw [execMarkEdge, running, if_neg Bool.false_ne_true]
  exact if_pos h

/-- The filtered level follows, and a matching edge fills the input's slot. -/
theorem exec_markEdge_of_seen {k : Fin 6} {high : Bool} {clocks : Nat} (running : s.timing.stopped = false)
    (differs : s.timing.filtered[k] ≠ high) (long : 200 ≤ clocks) :
    let seen : State := { s with timing := { s.timing with filtered := s.timing.filtered.set k high } }
    exec (.markEdge k high clocks) s = .next
      (if (s.timing.selections[k]).accepts high then fillSlot (k.castLE (by omega)) none seen else seen) := by
  intro seen
  have passes : ¬ (s.timing.filtered[k] = high ∨ clocks < Config.markFilterClocks) := by
    rintro (same | short)
    · exact differs same
    · exact absurd long (Nat.not_le.2 short)
  change execMarkEdge k high clocks s = _
  rw [execMarkEdge, running, if_neg Bool.false_ne_true, if_neg passes]
  exact (apply_ite Host.Outcome.next ..).symm

/-- All that a mark does to the slots of a running timing unit. -/
theorem fillSlot_of_running (i : Fin 7) (mark : Option (MarkFunction × Fin 8)) (running : s.timing.stopped = false) :
    let full := (s.timing.slots[i]).isSome
    let capture : Capture := { audioCount := s.timing.audioCount, overwritten := full, mark := mark }
    let filled : State := { s with timing := { s.timing with slots := s.timing.slots.set i (some capture) } }
    fillSlot i mark s = if full then offer 0 (.markOverwrite (1#7 <<< i.val)) filled else filled := by
  intro full capture filled
  rw [fillSlot, running, if_neg Bool.false_ne_true]

/-- R58 as a formula. -/
theorem EdgeSelection.accepts_eq (e : EdgeSelection) (high : Bool) :
    e.accepts high = (e == .both || (e == .rising && high) || (e == .falling && !high)) := by
  cases e <;> cases high <;> rfl

end Sys2Proof.Machine

open Sys2Proof Sys2Proof.Machine

/-- Settles O35: each accepted pulse and each expiry is one `takeBoundary`, with the new reference and the event of
its row of the table of 3.2. -/
theorem referencesFollowPulsesAndTimers : Obligations.ReferencesFollowPulsesAndTimers := by
  intro ref s running x p limit
  have period : s.timing.period ref = p := by
    unfold p Timing.period VideoRate.period
    cases ref <;> cases s.timing.rate <;> rfl
  have holdover : holdoverLimit ref = limit := by cases ref <;> rfl
  refine ⟨?accepted, ?rejected, ?freeRun, ?loss⟩
  case accepted =>
    intro h
    rw [← period] at h
    refine ⟨_, exec_referencePulse_of_accepted running h, ?_⟩
    rw [acceptPulse_eq]
    exact ⟨takeBoundary_made .., takeBoundary_reference .., takeBoundary_reported ..⟩
  case rejected =>
    intro h
    rw [← period] at h
    rw [exec_referencePulse_of_rejected running h]
    cases ref <;> rfl
  case freeRun =>
    intro unlocked h
    rw [← period] at h
    rw [exec_freeRunTimer_of_due running unlocked h]
    by_cases counting : x.state = .freeRun
    · rw [freeRunExpiry_of_freeRun counting, holdover]
      refine ⟨_, _, _, rfl, takeBoundary_made .., takeBoundary_reference .., fun _ => ⟨rfl, rfl⟩,
        absurd counting, ?_⟩
      simp only [counting, true_and]
      exact takeBoundary_reported ..
    · rw [freeRunExpiry_of_not_counting unlocked counting]
      refine ⟨_, _, _, rfl, takeBoundary_made .., takeBoundary_reference .., (absurd · counting),
        fun _ => ⟨rfl, rfl⟩, ?_⟩
      simp only [counting, false_and, if_false]
      exact takeBoundary_reported ..
  case loss =>
    intro locked h
    have due : s.timing.lossThreshold ref ≤ x.elapsed := by rwa [Timing.lossThreshold, period]
    refine ⟨_, exec_lossTimer_of_due running locked due, ?_⟩
    rw [lossExpiry_eq]
    exact ⟨takeBoundary_made .., takeBoundary_reference .., takeBoundary_reported ..⟩

/-- Settles O36: the filter of R58 first, then the selection, then the slot of R59. -/
theorem markEdgeFillsItsSlot : Obligations.MarkEdgeFillsItsSlot := by
  intro k high clocks s running edge matching slot full seen capture filled
  refine ⟨exec_markEdge_of_filtered running, fun differs long => ?_⟩
  rw [exec_markEdge_of_seen running differs long, EdgeSelection.accepts_eq,
    fillSlot_of_running (s := seen) _ _ running]
  rfl

end

section
/-! SUPPORT. The stream governor at a video boundary: the staged group judged, and the hint stepped (R140, R141, R144,
R145). -/

namespace Sys2Proof.Machine

/-! ## The hint step (R141) -/

/-- The target moved to by at most the step; that the hint is a `Nat` costs the outer `max 0`. -/
theorem StreamSettings.stepHint_cast (g : StreamSettings) (fill hint : Nat) :
    (g.stepHint fill hint : Int) =
      max 0 (hint + max (-(g.step : Int)) (min (g.step : Int) (g.hintTarget fill - hint))) :=
  (Int.toNat_eq_max _).trans (max_comm ..)

/-- The hint after step 2 of R140: a stream without applied settings keeps it. -/
def Stream.steppedHint (x : Stream) : Nat :=
  match x.applied with
  | some g => g.stepHint x.fill x.hint
  | none => x.hint

theorem Stream.steppedHint_of_applied {x : Stream} {g : StreamSettings} (h : x.applied = some g) :
    x.steppedHint = g.stepHint x.fill x.hint := by
  rw [steppedHint, h]

theorem Stream.steppedHint_of_not_applied {x : Stream} (h : x.applied = none) : x.steppedHint = x.hint := by
  rw [steppedHint, h]

/-! ## The staged group (R144, R145) -/

theorem takesEffect_some (g : StreamSettings) (fill : Nat) :
    takesEffect (some g) fill = true ↔ fill ≤ g.capacity := decide_eq_true_iff

theorem takesEffect_none (fill : Nat) : takesEffect none fill = true ↔ fill = 0 := beq_iff_eq

/-- A staged group that the fill allows is applied, and the hint is not stepped. -/
theorem Stream.atBoundary_of_takesEffect {x : Stream} {g : Option StreamSettings} (staged : x.staged = some g)
    (allowed : takesEffect g x.fill = true) :
    x.atBoundary = { x with applied := g, staged := none, hint := (g.map (·.base)).getD x.hint } := by
  simp only [atBoundary, staged, allowed, if_true]
  cases g <;> rfl

/-- No group is staged, or the one staged is held: only the hint changes. -/
theorem Stream.atBoundary_of_held {x : Stream} (held : ∀ g, x.staged = some g → takesEffect g x.fill ≠ true) :
    x.atBoundary = { x with hint := x.steppedHint } := by
  obtain ⟨applied, staged⟩ := x
  cases staged with
  | none => cases applied <;> rfl
  | some g => cases applied <;> exact if_neg (held g rfl)

/-- What a boundary leaves of a stream. -/
theorem Stream.atBoundary_frame (x : Stream) :
    x.atBoundary =
      { x with applied := x.atBoundary.applied, staged := x.atBoundary.staged, hint := x.atBoundary.hint } := by
  by_cases allowed : ∃ g, x.staged = some g ∧ takesEffect g x.fill = true
  · obtain ⟨g, staged, allowed⟩ := allowed
    rw [atBoundary_of_takesEffect staged allowed]
  · rw [atBoundary_of_held fun g staged effect => allowed ⟨g, staged, effect⟩]

/-! ## The boundary (R140) -/

theorem exec_governorVideoBoundary_of_running {s : State} {b : VideoBoundary} {rest : List VideoBoundary}
    (boundaries : s.governor.boundaries = b :: rest) (running : s.governor.stopped = false) :
    exec .governorVideoBoundary s = .next { s with governor := { s.governor with
      boundaries := rest
      streams := mapTable Stream.atBoundary s.governor.streams } } := by
  change execGovernorVideoBoundary s = _
  simp only [execGovernorVideoBoundary, boundaries, running, Bool.false_eq_true, if_false]

theorem changesOnly_governor_update (s : State) (x : Governor) :
    ChangesOnly [.governor] s { s with governor := x } := by
  constructor; intro p hp; cases p <;> simp_all [Part.same]

end Sys2Proof.Machine

open Sys2Proof Sys2Proof.Machine

/-- Settles O39: each stream is judged on its own (R140); its staged group takes effect, or is held and the hint is
stepped. -/
theorem governorStepsHintsAtABoundary : Obligations.GovernorStepsHintsAtABoundary := by
  intro b rest s boundaries running
  refine ⟨_, exec_governorVideoBoundary_of_running boundaries running, changesOnly_governor_update .., rfl, ?_⟩
  intro n x y
  have taken : y = x.atBoundary := mapTable_get ..
  clear_value y
  subst taken
  refine ⟨x.atBoundary_frame, ?enabled, ?disabled, ?held⟩
  case enabled =>
    intro g staged fits
    rw [Stream.atBoundary_of_takesEffect staged ((takesEffect_some ..).mpr fits)]
    exact ⟨rfl, rfl, rfl⟩
  case disabled =>
    intro staged empty
    rw [Stream.atBoundary_of_takesEffect staged ((takesEffect_none ..).mpr empty)]
    exact ⟨rfl, rfl, rfl⟩
  case held =>
    intro waits
    have held : ∀ g, x.staged = some g → takesEffect g x.fill ≠ true := by
      intro g staged
      rcases waits with unstaged | ⟨disabling, full⟩ | ⟨g', enabling, above⟩
      · simp [unstaged] at staged
      · obtain rfl : none = g := Option.some.inj (disabling.symm.trans staged)
        rwa [ne_eq, takesEffect_none]
      · obtain rfl : some g' = g := Option.some.inj (enabling.symm.trans staged)
        rwa [ne_eq, takesEffect_some, not_le]
    rw [Stream.atBoundary_of_held held]
    exact ⟨rfl, rfl, Stream.steppedHint_of_not_applied, fun g applied =>
      (congrArg _ (Stream.steppedHint_of_applied applied)).trans (g.stepHint_cast ..)⟩

end

section
/-! SUPPORT. The line measurement: its two commands, and its timer at an audio boundary (R205-R207, R209, R210). -/

namespace Sys2Proof.Machine

variable {s : State}

/-! ## MEASURE_START and MEASURE_STOP (R205, R206) -/

theorem exec_measureStart_of_handed {p : BitVec 64} (normal : s.isNormal = true)
    (handed : s.command.handed = some (.measureStart p)) :
    exec .measureStart s = .next
      (if p.toNat % 2 ^ 32 < 100 ∨ 60000 < p.toNat % 2 ^ 32 then complete .invalid 1 s
      else if s.ownedWindow .meas = none then complete .notOperational 0 s
      else complete .accepted 0 (s.setFault (s.fault.start (p.toNat % 2 ^ 32)))) := by
  change execMeasureStart s = _
  simp only [execMeasureStart, handed, normal, if_true, Option.isNone_iff_eq_none, apply_ite Host.Outcome.next]

theorem exec_measureStop_of_handed (normal : s.isNormal = true) (handed : s.command.handed = some .measureStop) :
    exec .measureStop s = .next
      (if s.fault.state = .inactive then complete .conflict 0 s
      else complete .accepted 0 (s.setFault s.fault.stop)) := by
  change execMeasureStop s = _
  simp only [execMeasureStop, handed, normal, if_true, apply_ite Host.Outcome.next]

/-! ## The measurement timer (R207, R209, R210) -/

/-- The LOS audio frames as a sum, which a line without LOS adds 0 to. -/
theorem FaultUnit.countFrame_eq (x : FaultUnit) :
    x.countFrame = { x with
      totals := Vector.ofFn fun l : Fin 3 =>
        { x.totals[l] with losFrames := (x.totals[l]).losFrames + if x.los[l] then 1 else 0 }
      frames := x.frames + 1 } := by
  have line (l : Fin 3) :
      (if x.los[l] then { x.totals[l] with losFrames := (x.totals[l]).losFrames + 1 } else x.totals[l]) =
        { x.totals[l] with losFrames := (x.totals[l]).losFrames + if x.los[l] then 1 else 0 } := by
    cases x.los[l] with
    | true => rfl
    | false => simp
  simp only [countFrame, line]

/-- The block writes of an interval end, in line order. -/
theorem makeRequests_blockWrites (q : Fin 8) (serial : Nat) (s : State) :
    let write (l : LineId) : Made := { purpose := .measWrite serial l false, fixed := none }
    makeRequests q (blockWrites serial) s =
      makeRequest q (write 2) (makeRequest q (write 1) (makeRequest q (write 0) s)) := rfl

theorem endIfReached_of_below (count : Count32) (below : s.fault.frames < s.fault.interval) :
    endIfReached count s = s :=
  if_neg (Nat.not_le.2 below)

theorem endIfReached_of_reached (count : Count32) (reached : s.fault.interval ≤ s.fault.frames) :
    endIfReached count s =
      makeRequests faultQueue (blockWrites s.fault.nextSerial) (s.setFault (s.fault.endInterval count)) :=
  if_pos reached

theorem timerBoundary_of_inactive (b : AudioBoundary) (h : s.fault.state = .inactive) : timerBoundary b s = s := by
  simp only [timerBoundary, h]

theorem timerBoundary_of_starting (b : AudioBoundary) (h : s.fault.state = .starting) :
    timerBoundary b s = s.setFault s.fault.begin := by
  simp only [timerBoundary, h]

theorem timerBoundary_of_active (b : AudioBoundary) (h : s.fault.state = .active) :
    timerBoundary b s = endIfReached b.count (s.setFault s.fault.countFrame) := by
  simp only [timerBoundary, h]

theorem exec_measurementTimer_of_normal {b : AudioBoundary} {rest : List AudioBoundary}
    (boundaries : s.fault.boundaries = b :: rest) (normal : s.isNormal = true) :
    exec .measurementTimer s =
      .next (timerBoundary b (s.setFault { s.fault with boundaries := rest })) := by
  have normal' : (s.setFault { s.fault with boundaries := rest }).isNormal = true := normal
  change execMeasurementTimer s = _
  simp only [execMeasurementTimer, boundaries, normal', if_true]

end Sys2Proof.Machine

open Sys2Proof Sys2Proof.Machine

/-- Settles O32: both commands decide by their cases, and an accepted one changes the fault unit by its
measurement state. -/
theorem measureCommandsDecide : Obligations.MeasureCommandsDecide := by
  intro s normal
  refine ⟨?start, ?stop⟩
  case start =>
    intro p handed
    exact exec_measureStart_of_handed normal handed
  case stop =>
    intro handed
    exact exec_measureStop_of_handed normal handed

/-- Settles O51: the measurement state decides the boundary, and in ACTIVE the frames counted with this one are held
against the interval length. -/
theorem measurementTimerRunsTheIntervals : Obligations.MeasurementTimerRunsTheIntervals := by
  intro b rest s boundaries normal x counted
  let taken := s.setFault { x with boundaries := rest }
  have run : exec .measurementTimer s = .next (timerBoundary b taken) :=
    exec_measurementTimer_of_normal boundaries normal
  rw [run]
  refine ⟨?inactive, ?starting, ?below, ?reached⟩
  case inactive =>
    intro inactive
    rw [timerBoundary_of_inactive (s := taken) b inactive]
    rfl
  case starting =>
    intro starting
    rw [timerBoundary_of_starting (s := taken) b starting]
    rfl
  case below =>
    intro active below
    rw [timerBoundary_of_active (s := taken) b active, endIfReached_of_below b.count below, FaultUnit.countFrame_eq]
    rfl
  case reached =>
    intro active reached blocks write
    rw [timerBoundary_of_active (s := taken) b active, endIfReached_of_reached b.count reached, makeRequests_blockWrites,
      FaultUnit.countFrame_eq]
    rfl

end

section
/-! SUPPORT. Timecodes: validity, the advance by a frame and the adjustment to a rate (R53, R57). -/

set_option Elab.async false

namespace Sys2Proof.Machine

variable {x : Timecode} {r : VideoRate}

theorem Timecode.valid_iff (x : Timecode) (r : VideoRate) :
    x.valid r = true ↔ x.hh ≤ 23 ∧ x.mm ≤ 59 ∧ x.ss ≤ 59 ∧ x.ff < r.frameBase ∧
      ¬ (x.ss = 0 ∧ x.mm % 10 ≠ 0 ∧ x.ff < r.skipped) := by
  simp [valid, isSkipped, and_assoc, imp_iff_not_or, or_assoc]

/-- Every rate has more frames in a second than it skips at a minute. -/
theorem VideoRate.skipped_lt_frameBase (r : VideoRate) : r.skipped < r.frameBase := by
  cases r <;> decide

/-! ## The advance, carry by carry (R53) -/

theorem Timecode.advance_of_frame (h : x.ff + 1 < r.frameBase) : x.advance r = { x with ff := x.ff + 1 } := by
  simp [advance, carry, h]

theorem Timecode.advance_of_second (h : x.ff + 1 = r.frameBase) (hs : x.ss < 59) :
    x.advance r = { x with ss := x.ss + 1, ff := 0 } := by
  have carried : x.ss + 1 < 60 := by omega
  simp [advance, carry, h, carried]

theorem Timecode.advance_of_minute (h : x.ff + 1 = r.frameBase) (hs : x.ss = 59) (hm : x.mm < 59) :
    x.advance r = { hh := x.hh, mm := x.mm + 1, ss := 0, ff := if (x.mm + 1) % 10 = 0 then 0 else r.skipped } := by
  have carried : x.mm + 1 < 60 := by omega
  by_cases tenth : (x.mm + 1) % 10 = 0 <;> simp [advance, carry, h, hs, carried, tenth]

theorem Timecode.advance_of_hour (h : x.ff + 1 = r.frameBase) (hs : x.ss = 59) (hm : x.mm = 59) (hh : x.hh < 23) :
    x.advance r = { hh := x.hh + 1, mm := 0, ss := 0, ff := 0 } := by
  have carried : x.hh + 1 < 24 := by omega
  simp [advance, carry, h, hs, hm, carried]

theorem Timecode.advance_of_day (h : x.ff + 1 = r.frameBase) (hs : x.ss = 59) (hm : x.mm = 59) (hh : x.hh = 23) :
    x.advance r = { hh := 0, mm := 0, ss := 0, ff := 0 } := by
  simp [advance, carry, h, hs, hm, hh, Timecode.zero]

theorem Timecode.valid_advance (h : x.valid r = true) : (x.advance r).valid r = true := by
  obtain ⟨hh, mm, ss, ff, kept⟩ := (valid_iff x r).mp h
  have less := r.skipped_lt_frameBase
  rw [valid_iff]
  rcases Nat.lt_or_ge (x.ff + 1) r.frameBase with frame | last
  · rw [advance_of_frame frame]
    dsimp only
    omega
  have last : x.ff + 1 = r.frameBase := by omega
  rcases Nat.lt_or_ge x.ss 59 with second | lastSecond
  · rw [advance_of_second last second]
    dsimp only
    omega
  have lastSecond : x.ss = 59 := by omega
  rcases Nat.lt_or_ge x.mm 59 with minute | lastMinute
  · rw [advance_of_minute last lastSecond minute]
    dsimp only
    split <;> omega
  have lastMinute : x.mm = 59 := by omega
  rcases Nat.lt_or_ge x.hh 23 with hour | lastHour
  · rw [advance_of_hour last lastSecond lastMinute hour]
    dsimp only
    omega
  · rw [advance_of_day last lastSecond lastMinute (by omega)]
    dsimp only
    omega

/-! ## The adjustment (R57) -/

theorem Timecode.adjust_eq (x : Timecode) (r : VideoRate) :
    let frame := min x.ff (r.frameBase - 1)
    x.adjust r =
      { x with ff := if x.ss = 0 ∧ x.mm % 10 ≠ 0 ∧ frame < r.skipped then r.skipped else frame } := by
  intro frame
  have less := r.skipped_lt_frameBase
  have brought : (if r.frameBase ≤ x.ff then { x with ff := r.frameBase - 1 } else x) = { x with ff := frame } := by
    unfold frame
    split
    · rw [Nat.min_eq_right (by omega)]
    · rw [Nat.min_eq_left (by omega)]
  unfold adjust
  dsimp only
  rw [brought]
  simp only [isSkipped, Bool.and_eq_true, beq_iff_eq, bne_iff_ne, ne_eq, decide_eq_true_eq, and_assoc]
  split <;> rfl

/-- The frames are brought below the base and past the skipped ones, whatever rate they were counted at. -/
theorem Timecode.valid_adjust {q : VideoRate} (h : x.valid q = true) : (x.adjust r).valid r = true := by
  obtain ⟨hh, mm, ss, _, _⟩ := (valid_iff x q).mp h
  have less := r.skipped_lt_frameBase
  rw [valid_iff, adjust_eq]
  dsimp only
  split <;> omega

end Sys2Proof.Machine
end

section
/-! SUPPORT. What keeps the parts that the invariants speak of sound: the report queue, the timecode, the streams and
the clip table, each on its own (R30, R53, R107, R121, R124, R134). -/

set_option Elab.async false

namespace Sys2Proof.Machine

/-! ## The pending report queue (R30, R31) -/

theorem ofPair_iff {object : Nat} {d : Detail} {r : Record} :
    r.ofPair object d = true ↔ r.pair = (d.kind, object) := by
  simp [Record.ofPair, Record.pair, and_comm]

/-- A joined record keeps its pair. -/
theorem coalesce_pair (r q : Record) :
    (if q.ofPair r.object r.detail then q.coalesce r.detail else q).pair = q.pair := by
  split
  next h =>
    obtain ⟨kind, object⟩ := coalesce_kind h
    exact Prod.ext kind object
  next => rfl

theorem isFault_iff {r : Record} : r.isFault = true ↔ r.pair.1 = 10 := beq_iff_eq

/-- Soundness is a property of the pairs in the queue. -/
theorem Report.sound_iff (x : Report) :
    x.Sound ↔ (x.queue.map Record.pair).Nodup ∧
      (x.queue.map Record.pair).Pairwise fun a b => b.1 = 10 → a.1 = 10 := by
  simp only [Sound, List.pairwise_map, isFault_iff]

theorem enterQueue_perm (r : Record) (queue : List Record) : (enterQueue r queue).Perm (r :: queue) := by
  unfold enterQueue
  split
  · exact List.perm_middle.trans (.cons r (.of_eq List.takeWhile_append_dropWhile))
  · exact List.perm_append_singleton r queue

/-- A new record enters behind FAULT records only, or at the tail. -/
theorem enterQueue_faultsFirst {r : Record} {queue : List Record}
    (h : queue.Pairwise fun a b => b.isFault = true → a.isFault = true) :
    (enterQueue r queue).Pairwise fun a b => b.isFault = true → a.isFault = true := by
  unfold enterQueue
  split
  next fault =>
    have head : ∀ a ∈ queue.takeWhile Record.isFault, a.isFault = true := fun a => List.mem_takeWhile_imp
    rw [List.pairwise_append, List.pairwise_cons]
    exact ⟨h.sublist (List.takeWhile_sublist _), ⟨fun _ _ _ => fault, h.sublist (List.dropWhile_sublist _)⟩,
      fun a ha _ _ _ => head a ha⟩
  next notFault =>
    rw [List.pairwise_append]
    refine ⟨h, List.pairwise_singleton .., fun a _ b hb fault => ?_⟩
    rw [List.mem_singleton.mp hb] at fault
    exact absurd fault notFault

theorem takeEvent_sound {x y : Report} {r : Record} (h : x.Sound) (e : y.queue = takeEvent r x.queue) :
    y.Sound := by
  unfold takeEvent at e
  split at e
  next joins =>
    have pairs : y.queue.map Record.pair = x.queue.map Record.pair := by
      rw [e, List.map_map]
      exact List.map_congr_left fun q _ => coalesce_pair r q
    rw [Report.sound_iff] at h ⊢
    rwa [pairs]
  next none =>
    obtain ⟨nodup, faults⟩ := h
    refine ⟨?_, e ▸ enterQueue_faultsFirst faults⟩
    rw [e, ((enterQueue_perm r x.queue).map _).nodup_iff, List.map_cons, List.nodup_cons]
    refine ⟨fun mem => none ?_, nodup⟩
    obtain ⟨q, hq, pair⟩ := List.mem_map.mp mem
    exact List.any_eq_true.mpr ⟨q, hq, ofPair_iff.mpr pair⟩

theorem Report.Sound.tail {x y : Report} {r : Record} (h : x.Sound) (e : x.queue = r :: y.queue) : y.Sound := by
  obtain ⟨nodup, faults⟩ := h
  rw [e] at nodup faults
  exact ⟨(List.nodup_cons.mp nodup).2, faults.of_cons⟩

/-! ## The timecode (R52, R57) -/

/-- A video boundary: the jam, valid for the rate in force, or the timecode advanced, then adjusted to a new rate. -/
theorem Timing.Sound.countVideo {x : Timing} (h : x.Sound) : x.countVideo.Sound := by
  obtain ⟨timecode, jam⟩ := h
  have moved : (x.jam.getD (x.timecode.advance x.rate)).valid x.rate = true := by
    cases j : x.jam with
    | none => exact Timecode.valid_advance timecode
    | some t => exact jam t j
  refine ⟨?_, fun j hj => by cases hj⟩
  change Timecode.valid (if x.stagedRate.getD x.rate = x.rate then _ else _) (x.stagedRate.getD x.rate) = true
  split
  next same => rwa [same]
  next => exact Timecode.valid_adjust moved

end Sys2Proof.Machine
end

section
/-! SUPPORT. What keeps the streams sound: markers, taps, claims and flushes (R131-R137, R144-R146). -/

set_option Elab.async false

namespace Sys2Proof.Machine

/-! ## The streams (R131-R137, R144-R146) -/

theorem addNotice_length (first last : Count32) (flag : Bool) {ns : List Notice} (h : ns.length ≤ 4) :
    (addNotice first last flag ns).length ≤ 4 := by
  unfold addNotice
  split
  next room =>
    rw [List.length_append]
    exact room
  next =>
    split
    next => exact Nat.zero_le 4
    next newest older reversed =>
      have len := congrArg List.length reversed
      simp only [List.length_reverse, List.length_cons] at len
      simpa [← len] using h

theorem addNotices_length {ps : List Picture} (f : List Notice → Picture → List Notice)
    (keeps : ∀ ns p, ns.length ≤ 4 → (f ns p).length ≤ 4) {ns : List Notice} (h : ns.length ≤ 4) :
    (ps.foldl f ns).length ≤ 4 := by
  induction ps generalizing ns with
  | nil => exact h
  | cons p ps ih => exact ih (keeps ns p h)

/-- The unsent bytes of the QUEUED and SENDING entries of a queue. -/
def owedOf (ps : List Picture) : Nat := unsentBytes (ps.filter Picture.owed)

theorem Stream.owedBytes_eq (x : Stream) : x.owedBytes = owedOf x.pictures := rfl

theorem owedOf_append (ps qs : List Picture) : owedOf (ps ++ qs) = owedOf ps + owedOf qs := by
  simp [owedOf, unsentBytes]

theorem owedOf_cons_of_owed {p : Picture} (h : p.owed = true) (ps : List Picture) :
    owedOf (p :: ps) = p.unsent + owedOf ps := by
  simp [owedOf, unsentBytes, h]

theorem owedOf_cons_of_corrupt {p : Picture} (h : p.owed = false) (ps : List Picture) :
    owedOf (p :: ps) = owedOf ps := by
  simp [owedOf, h]

theorem owed_eq_false_iff {p : Picture} : p.owed = false ↔ p.state = .corrupt := by simp [Picture.owed]

/-- CORRUPT entries owe nothing, so the fill stands when they leave. -/
theorem owedOf_dropCorrupt (ps : List Picture) : owedOf (ps.dropWhile fun p => p.state == .corrupt) = owedOf ps := by
  induction ps with
  | nil => rfl
  | cons p ps ih =>
    by_cases corrupt : p.state = .corrupt
    · rw [List.dropWhile_cons_of_pos (by simpa using corrupt), ih,
        owedOf_cons_of_corrupt (owed_eq_false_iff.mpr corrupt)]
    · rw [List.dropWhile_cons_of_neg (by simpa using corrupt)]

/-- What the overrun entries give back (R137). -/
theorem owedOf_giveUp (ring : Nat) (written : List Nat) (ps : List Picture) :
    owedOf ps = owedOf (ps.map (Picture.giveUp ring written)) +
      unsentBytes (ps.filter fun p => p.overrunBy ring written) := by
  induction ps with
  | nil => rfl
  | cons p ps ih =>
    rw [List.map_cons, List.filter_cons, Picture.giveUp]
    split
    next overrun =>
      have owed : p.owed = true := by
        rw [Picture.overrunBy, Bool.and_eq_true] at overrun
        exact overrun.1
      rw [owedOf_cons_of_owed owed, owedOf_cons_of_corrupt rfl, ih]
      simp [unsentBytes]
      omega
    next =>
      cases owed : p.owed with
      | true => rw [owedOf_cons_of_owed owed, owedOf_cons_of_owed owed, ih, Nat.add_assoc]
      | false => rw [owedOf_cons_of_corrupt owed, owedOf_cons_of_corrupt owed, ih]

/-- Soundness of a stream whose claim is gone or void, with CORRUPT entries still at the head. -/
theorem Stream.Sound.dropCorrupt {x : Stream} (h : x.Sound) : x.dropCorrupt.Sound := by
  unfold Stream.dropCorrupt
  split
  · exact h
  next unclaimed =>
    obtain ⟨fill, room, pictures, notices, _⟩ := h
    refine ⟨?_, room, ?_, notices, fun c hc => absurd (Option.isSome_iff_exists.mpr ⟨c, hc⟩) unclaimed⟩
    · rw [Stream.owedBytes_eq, owedOf_dropCorrupt]
      exact fill
    · exact (List.dropWhile_sublist _).length_le.trans pictures

theorem Stream.Sound.tapped {x : Stream} (h : x.Sound) (ring : Nat) (written : List Nat) :
    (x.tapped ring written).Sound := by
  obtain ⟨fill, room, pictures, notices, claim⟩ := h
  refine Stream.Sound.dropCorrupt ⟨?_, (Nat.sub_le ..).trans room, ?_, ?_, ?_⟩
  · have given := owedOf_giveUp ring written x.pictures
    rw [Stream.owedBytes_eq] at fill ⊢
    dsimp only
    omega
  · rwa [List.length_map]
  · exact addNotices_length (fun ns p => addNotice p.number p.number p.begun ns)
      (fun ns p => addNotice_length p.number p.number p.begun) notices
  · intro c hc stands
    obtain ⟨c', held, rfl⟩ := Option.map_eq_some_iff.mp hc
    cases ps : x.pictures with
    | nil =>
      simp only [Claim.afterTap, ps] at stands
      obtain ⟨p, rest, hp, _⟩ := claim c' held stands
      rw [ps] at hp
      cases hp
    | cons p rest =>
      simp only [Claim.afterTap, ps] at stands ⊢
      split at stands
      · cases stands
      next clear =>
        obtain ⟨p', rest', hp, owed, length⟩ := claim c' held stands
        obtain ⟨rfl, rfl⟩ := List.cons.inj (ps.symm.trans hp)
        refine ⟨p, rest.map (Picture.giveUp ring written), ?_, owed, ?_⟩
        · simp [Picture.giveUp, clear]
        · rwa [if_neg clear]

/-- The picture of a valid marker enters within the budget (R131). -/
theorem Stream.Sound.enqueue {x y : Stream} {entry : Picture} (h : x.Sound) (fits : x.fits entry.unsent = true)
    (queued : entry.state = .queued) (fill' : y.fill = x.fill + entry.unsent)
    (pictures' : y.pictures = x.pictures ++ [entry]) (applied : y.applied = x.applied)
    (notices' : y.notices = x.notices) (claim' : y.claim = x.claim) : y.Sound := by
  obtain ⟨fill, room, pictures, notices, claim⟩ := h
  simp only [Stream.fits, Bool.and_eq_true, decide_eq_true_eq] at fits
  obtain ⟨place, budget⟩ := fits
  have owed : entry.owed = true := by simp [Picture.owed, queued]
  refine ⟨?_, ?_, ?_, notices' ▸ notices, ?_⟩
  · rw [Stream.owedBytes_eq] at fill ⊢
    rw [fill', pictures', owedOf_append, owedOf_cons_of_owed owed, fill]
    rfl
  · rwa [fill', Stream.capacity, applied]
  · rw [pictures', List.length_append]
    exact place
  · intro c hc stands
    obtain ⟨p, rest, hp, head⟩ := claim c (claim' ▸ hc) stands
    exact ⟨p, rest ++ [entry], by rw [pictures', hp, List.cons_append], head⟩

/-- Only a stream without a claim grants one, on its head entry (R135). -/
theorem Stream.Sound.grant {x y : Stream} {n : Fin 4} {w : WindowEntry} {g : Grant} (h : x.Sound)
    (granted : x.grant n w = some (g, y)) : y.Sound := by
  obtain ⟨fill, room, pictures, notices, _⟩ := h
  unfold Stream.grant at granted
  split at granted
  next p rest _ ps =>
    split at granted
    next owed =>
      obtain ⟨_, rfl⟩ := Prod.mk.inj (Option.some.inj granted)
      rw [Stream.owedBytes_eq, ps, owedOf_cons_of_owed owed] at fill
      rw [ps] at pictures
      have sending : Picture.owed { p with state := .sending } = true := rfl
      refine ⟨?_, room, pictures, notices, ?_⟩
      · rw [Stream.owedBytes_eq, owedOf_cons_of_owed sending]
        exact fill
      · intro c hc _
        cases hc
        exact ⟨_, rest, rfl, sending, Nat.min_le_right ..⟩
    next => cases granted
  next => cases granted

/-- A claim that stands drains bytes of the head entry, which owes them (R136). -/
theorem Stream.Sound.drain {x : Stream} {c : Claim} (h : x.Sound) (held : x.claim = some c)
    (stands : c.isVoid = false) : Stream.Sound { x.drain c.length with claim := none } := by
  obtain ⟨fill, room, pictures, notices, claim⟩ := h
  obtain ⟨p, rest, ps, owed, length⟩ := claim c held stands
  rw [Stream.owedBytes_eq, ps, owedOf_cons_of_owed owed] at fill
  rw [ps, List.length_cons] at pictures
  refine ⟨?_, (Nat.sub_le ..).trans room, ?_, notices, fun c hc => by cases hc⟩
  · rw [Stream.owedBytes_eq, Stream.drain]
    dsimp only
    rw [ps]
    dsimp only
    split
    · omega
    · rw [owedOf_cons_of_owed (p := { p with unsent := p.unsent - c.length }) owed]
      dsimp only
      omega
  · rw [Stream.drain]
    dsimp only
    rw [ps]
    dsimp only
    split
    · omega
    · exact pictures

theorem Stream.Sound.endClaim {x : Stream} (h : x.Sound) (withData : Bool) : (x.endClaim withData).1.Sound := by
  have unclaimed : Stream.Sound { x with claim := none } := by
    obtain ⟨fill, room, pictures, notices, _⟩ := h
    exact ⟨fill, room, pictures, notices, fun c hc => by cases hc⟩
  unfold Stream.endClaim
  split
  · exact h
  next c held =>
    refine Stream.Sound.dropCorrupt ?_
    split
    next stands =>
      rw [Bool.and_eq_true, Bool.not_eq_true'] at stands
      exact h.drain held stands.2
    next => exact unclaimed

theorem Stream.Sound.flush {x : Stream} (h : x.Sound) : x.flush.Sound := by
  obtain ⟨_, _, _, notices, _⟩ := h
  refine ⟨rfl, Nat.zero_le _, Nat.zero_le _, ?_, ?_⟩
  · change (match x.pictures.filter Picture.owed with | [] => _ | p :: _ => _ : List Notice).length ≤ 4
    split
    · exact notices
    · exact addNotice_length _ _ _ notices
  · intro c hc stands
    obtain ⟨_, _, rfl⟩ := Option.map_eq_some_iff.mp hc
    cases stands

/-- Settings take effect only when their capacity holds the fill (R144). -/
theorem Stream.Sound.atBoundary {x : Stream} (h : x.Sound) : x.atBoundary.Sound := by
  obtain ⟨fill, room, rest⟩ := h
  by_cases effect : ∃ g, x.staged = some g ∧ takesEffect g x.fill = true
  · obtain ⟨g, staged, allowed⟩ := effect
    rw [Stream.atBoundary_of_takesEffect staged allowed]
    refine ⟨fill, ?_, rest⟩
    cases g with
    | some g => exact (takesEffect_some g x.fill).mp allowed
    | none => exact ((takesEffect_none x.fill).mp allowed).le
  · rw [Stream.atBoundary_of_held fun g staged allowed => effect ⟨g, staged, allowed⟩]
    exact ⟨fill, room, rest⟩

/-- A stream with its notices given away, or some value changed that soundness does not speak of. -/
theorem Stream.Sound.of_core {x y : Stream} (h : x.Sound) (fill : y.fill = x.fill) (applied : y.applied = x.applied)
    (pictures : y.pictures = x.pictures) (claim : y.claim = x.claim) (notices : y.notices.length ≤ 4) : y.Sound := by
  obtain ⟨f, r, p, _, c⟩ := h
  refine ⟨?_, ?_, pictures ▸ p, notices, ?_⟩
  · rw [fill, f, Stream.owedBytes_eq, Stream.owedBytes_eq, pictures]
  · rwa [fill, Stream.capacity, applied]
  · unfold Stream.ClaimSound
    rwa [claim, pictures]

end Sys2Proof.Machine
end

section
/-! SUPPORT. What keeps the clip table, the timing unit and the window table sound (R11, R53, R107, R121). -/

set_option Elab.async false

namespace Sys2Proof.Machine

/-- A table read after one of its entries has been set. -/
theorem getElem_set_fin {α : Type} {n : Nat} (v : Vector α n) (i j : Fin n) (a : α) :
    (v.set i a)[j] = if j = i then a else v[j] := by
  rw [Fin.getElem_fin, Vector.getElem_set, Fin.getElem_fin]
  simp only [Fin.ext_iff, eq_comm]

/-! ## The clip table (R107, R121, R124) -/

/-- Whether a record is OPEN, and its camera: all of it that the soundness of the table depends on. -/
def Clip.standing (c : Clip) : Bool × Fin 8 := (c.isOpen, c.camera)

/-- The standing of a record, absent for a FREE one. -/
def Label.standing (x : Label) (i : Fin 32) : Option (Bool × Fin 8) := (x.clips[i]).map Clip.standing

theorem Label.standing_eq_some {x : Label} {i : Fin 32} {isOpen : Bool} {k : Fin 8} :
    x.standing i = some (isOpen, k) ↔ ∃ c, x.clips[i] = some c ∧ c.isOpen = isOpen ∧ c.camera = k := by
  simp [standing, Clip.standing]

theorem Label.standing_set (x y : Label) (i : Fin 32) (c : Option Clip) (h : y.clips = x.clips.set i c)
    (j : Fin 32) : y.standing j = if j = i then c.map Clip.standing else x.standing j := by
  rw [standing, h, getElem_set_fin]
  split <;> rfl

theorem Label.sound_iff (x : Label) :
    x.Sound ↔ x.order.Nodup ∧ (∀ i, i ∈ x.order ↔ ∃ k, x.standing i = some (false, k)) ∧
      (∀ i j k, x.standing i = some (true, k) → x.standing j = some (true, k) → i = j) ∧ x.uplink.length ≤ 8 := by
  have closed (i : Fin 32) : x.closedAt i ↔ ∃ k, x.standing i = some (false, k) := by
    simp only [closedAt, standing_eq_some]
    exact ⟨fun ⟨c, hc, shut⟩ => ⟨_, c, hc, shut, rfl⟩, fun ⟨_, c, hc, shut, _⟩ => ⟨c, hc, shut⟩⟩
  simp only [Sound, closed]
  refine and_congr_right fun _ => and_congr_right fun _ => and_congr_left fun _ => ⟨?_, ?_⟩
  · intro h i j k hi hj
    obtain ⟨c, hc, openC, rfl⟩ := standing_eq_some.mp hi
    obtain ⟨d, hd, openD, same⟩ := standing_eq_some.mp hj
    exact h i j c d hc hd openC openD same.symm
  · intro h i j c d hc hd openC openD same
    exact h i j c.camera (standing_eq_some.mpr ⟨c, hc, openC, rfl⟩)
      (standing_eq_some.mpr ⟨d, hd, openD, same.symm⟩)

/-- A change that leaves every record's standing and the close-order list. -/
theorem Label.Sound.of_standing {x y : Label} (h : x.Sound) (clips : ∀ i, y.standing i = x.standing i)
    (order : y.order = x.order) (uplink : y.uplink.length ≤ 8) : y.Sound := by
  rw [sound_iff] at h ⊢
  obtain ⟨nodup, closed, opened, _⟩ := h
  simp only [clips, order]
  exact ⟨nodup, closed, opened, uplink⟩

theorem Label.Sound.uplink_le {x : Label} (h : x.Sound) : x.uplink.length ≤ 8 := h.2.2.2

/-- A record becomes FREE and leaves the list (R121). -/
theorem Label.Sound.free {x y : Label} {i : Fin 32} (h : x.Sound) (clips : y.clips = x.clips.set i none)
    (order : y.order = x.order.filter (· != i)) (uplink : y.uplink = x.uplink) : y.Sound := by
  rw [sound_iff] at h ⊢
  obtain ⟨nodup, closed, opened, copies⟩ := h
  simp only [standing_set x y i none clips, order, uplink]
  refine ⟨nodup.filter _, fun j => ?_, fun j m k hj hm => ?_, copies⟩
  · by_cases same : j = i
    · simp [same]
    · simp [same, closed j]
  · split at hj
    · cases hj
    · split at hm
      · cases hm
      · exact opened j m k hj hm

/-- An OPEN record becomes CLOSED at the tail of the list (R109). -/
theorem Label.Sound.close {x y : Label} {i : Fin 32} {c d : Clip} (h : x.Sound) (held : x.clips[i] = some c)
    (isOpen : c.isOpen = true) (shut : d.isOpen = false) (clips : y.clips = x.clips.set i (some d))
    (order : y.order = x.order ++ [i]) (uplink : y.uplink = x.uplink) :
    y.Sound ∧ ∀ j, y.standing j ≠ some (true, c.camera) := by
  have standing : x.standing i = some (true, c.camera) := standing_eq_some.mpr ⟨c, held, isOpen, rfl⟩
  rw [sound_iff] at h ⊢
  obtain ⟨nodup, closed, opened, copies⟩ := h
  have absent : i ∉ x.order := fun mem => by simpa [standing] using (closed i).mp mem
  have after (j : Fin 32) : y.standing j = if j = i then some (false, d.camera) else x.standing j := by
    rw [standing_set x y i (some d) clips, Option.map_some, Clip.standing, shut]
  simp only [after, order, uplink]
  refine ⟨⟨?_, fun j => ?_, fun j m k hj hm => ?_, copies⟩, fun j hj => ?_⟩
  · exact nodup.append (List.nodup_singleton i) (List.disjoint_singleton.mpr absent)
  · by_cases same : j = i
    · simp [same]
    · simp [same, closed j]
  · split at hj
    · cases hj
    · split at hm
      · cases hm
      · exact opened j m k hj hm
  · split at hj
    · cases hj
    next other => exact other (opened j i _ hj standing)

/-- A FREE record becomes OPEN on a camera without an OPEN clip (R108). -/
theorem Label.Sound.open {x y : Label} {i : Fin 32} {c : Clip} (h : x.Sound) (free : x.clips[i] = none)
    (isOpen : c.isOpen = true) (unopened : ∀ j, x.standing j ≠ some (true, c.camera))
    (clips : y.clips = x.clips.set i (some c)) (order : y.order = x.order) (uplink : y.uplink = x.uplink) :
    y.Sound := by
  have standing : x.standing i = none := by rw [Label.standing, free, Option.map_none]
  rw [sound_iff] at h ⊢
  obtain ⟨nodup, closed, opened, copies⟩ := h
  have after (j : Fin 32) : y.standing j = if j = i then some (true, c.camera) else x.standing j := by
    rw [standing_set x y i (some c) clips, Option.map_some, Clip.standing, isOpen]
  simp only [after, order, uplink]
  refine ⟨nodup, fun j => ?_, fun j m k hj hm => ?_, copies⟩
  · by_cases same : j = i
    · rw [same, closed i, standing]
      simp
    · rw [closed j, if_neg same]
  · split at hj
    next hji =>
      split at hm
      next hmi => rw [hji, hmi]
      next =>
        cases hj
        exact absurd hm (unopened m)
    next =>
      split at hm
      next =>
        cases hm
        exact absurd hj (unopened j)
      next => exact opened j m k hj hm

/-! ## Records found by a search of the table -/

theorem Label.openOf_eq_some {x : Label} {k : Fin 8} {i : Fin 32} (h : x.openOf k = some i) :
    ∃ c, x.clips[i] = some c ∧ c.isOpen = true ∧ c.camera = k := by
  have found := List.find?_some h
  cases hc : x.clips[i] with
  | none => simp [hc] at found
  | some c =>
    simp only [hc, Bool.and_eq_true, beq_iff_eq] at found
    exact ⟨c, rfl, found⟩

theorem Label.openOf_eq_none {x : Label} {k : Fin 8} (h : x.openOf k = none) (i : Fin 32) :
    x.standing i ≠ some (true, k) := by
  intro standing
  obtain ⟨c, hc, isOpen, camera⟩ := standing_eq_some.mp standing
  have none := List.find?_eq_none.mp h i (List.mem_finRange i)
  simp [hc, isOpen, camera] at none

theorem Label.freeRecord_eq_some {x : Label} {i : Fin 32} (h : x.freeRecord = some i) : x.clips[i] = none := by
  simpa using List.find?_some h

end Sys2Proof.Machine
end

section
/-! SUPPORT. The invariants that every step keeps (R2, R11, R17, R30, R53, R107, R134, R201): one relation between two
states, which every operation of the part is in. -/

set_option Elab.async false

namespace Sys2Proof.Machine

variable {s t u : State}

/-- The mode is PASS-ONLY exactly while a cause is held, and the further causes keep their bound (R201, R202). -/
def FaultUnit.Sound (x : FaultUnit) : Prop := (x.mode = .passOnly ↔ x.cause.isSome = true) ∧ x.further ≤ 255

/-- The forward queue and the lockout count keep their bounds (R2, R17). -/
def Path.Bounded (x : Path) : Prop := x.forward.length ≤ 32 ∧ x.lockout ≤ 16

/-- What is sound in s is sound in t, and PASS-ONLY mode lasts with its cause. An operation that leaves what a field
speaks of as it was needs no proof for it. -/
structure Keeps (s t : State) : Prop where
  report : s.report.Sound → t.report.Sound := by exact id
  label : s.label.Sound → t.label.Sound := by exact id
  governor : s.governor.Sound → t.governor.Sound := by exact id
  timing : s.timing.Sound → t.timing.Sound := by exact id
  table : s.TableSound → t.TableSound := by exact id
  bounds : s.path.Bounded → t.path.Bounded := by exact id
  fault : s.fault.Sound → t.fault.Sound := by exact id
  fatal : s.fault.mode = .passOnly → t.fault.mode = .passOnly ∧ t.fault.cause = s.fault.cause := by
    exact fun h => ⟨h, rfl⟩

theorem Keeps.refl (s : State) : Keeps s s := {}

theorem Keeps.trans (h : Keeps s t) (k : Keeps t u) : Keeps s u where
  report := k.report ∘ h.report
  label := k.label ∘ h.label
  governor := k.governor ∘ h.governor
  timing := k.timing ∘ h.timing
  table := k.table ∘ h.table
  bounds := k.bounds ∘ h.bounds
  fault := k.fault ∘ h.fault
  fatal mode :=
    have ⟨passOnly, cause⟩ := h.fatal mode
    have ⟨passOnly', cause'⟩ := k.fatal passOnly
    ⟨passOnly', cause'.trans cause⟩

/-- A last operation, after others. -/
theorem Keeps.after (k : Keeps t u) (h : Keeps s t) : Keeps s u := h.trans k

theorem Keeps.ite {c : Prop} [Decidable c] (h : Keeps s t) (k : Keeps s u) : Keeps s (if c then t else u) := by
  split
  · exact h
  · exact k

theorem Keeps.foldl {α : Type} (f : State → α → State) (h : ∀ s a, Keeps s (f s a)) (l : List α) (s : State) :
    Keeps s (l.foldl f s) := by
  induction l generalizing s with
  | nil => exact .refl s
  | cons a l ih => exact (h s a).trans (ih _)

/-- The blocks that no invariant speaks of. -/
theorem Keeps.of_changes (h : ChangesOnly [.command, .mixer, .lines, .pending] s t) : Keeps s t where
  report := by rw [h.report]; exact id
  label := by rw [h.label]; exact id
  governor := by rw [h.governor]; exact id
  timing := by rw [h.timing]; exact id
  table := by rw [State.TableSound, State.TableSound, State.controlPage, State.controlPage, h.path]; exact id
  bounds := by rw [h.path]; exact id
  fault := by rw [h.fault]; exact id
  fatal := by rw [h.fault]; exact fun h => ⟨h, rfl⟩

/-- The report queue, the label unit and the blocks that no invariant speaks of. -/
theorem Keeps.of_reported (h : ChangesOnly [.report, .label, .command, .mixer, .lines, .pending] s t)
    (report : s.report.Sound → t.report.Sound) (label : s.label.Sound → t.label.Sound) : Keeps s t where
  report := report
  label := label
  governor := by rw [h.governor]; exact id
  timing := by rw [h.timing]; exact id
  table := by rw [State.TableSound, State.TableSound, State.controlPage, State.controlPage, h.path]; exact id
  bounds := by rw [h.path]; exact id
  fault := by rw [h.fault]; exact id
  fatal := by rw [h.fault]; exact fun h => ⟨h, rfl⟩

/-! ## Shared operations -/

theorem offer_keeps (object : Nat) (d : Detail) (s : State) : Keeps s (offer object d s) := by
  unfold offer
  exact .ite { report := fun h => takeEvent_sound h rfl } (.refl s)

theorem raiseFault_keeps (c : FaultClass) (a : FailAddress) (s : State) : Keeps s (raiseFault c a s) := by
  unfold raiseFault
  exact .ite ((offer_keeps ..).after {}) (.refl s)

theorem setLockout_keeps {n : Nat} (h : s.path.lockout ≤ 16 → n ≤ 16) : Keeps s (setLockout n s) :=
  { bounds := fun ⟨forward, lockout⟩ => ⟨forward, h lockout⟩ }

theorem withdraw_keeps (q : Fin 8) (s : State) : Keeps s (withdraw q s) := by
  unfold withdraw settleLockout
  have queued : Keeps s (s.setQueue q RequestQueue.empty) := {}
  exact Keeps.after (.ite (.refl _) (setLockout_keeps fun _ => Nat.zero_le _)) queued

/-- The one operation that changes the mode: the first cause makes it PASS-ONLY, a later one is counted. -/
theorem raiseFatal_keeps (c : FatalCause) (s : State) : Keeps s (raiseFatal c s) := by
  unfold raiseFatal
  split
  next normal =>
    refine (withdraw_keeps ..).after
      { fault := fun ⟨_, further⟩ => ⟨by simp, further⟩, fatal := fun passOnly => ?_ }
    rw [isNormal_iff.mp normal] at passOnly
    cases passOnly
  next => exact { fault := fun ⟨mode, _⟩ => ⟨mode, Nat.min_le_right ..⟩ }

theorem notePresented_keeps (m : Made) (s : State) : Keeps s (notePresented m s) := by
  rw [notePresented_eq]
  exact {}

theorem presentNext_keeps (q : Fin 8) (s : State) : Keeps s (presentNext q s) := by
  have queued (x : RequestQueue) : Keeps s (s.setQueue q x) := {}
  rcases presentNext_cases q s with h | ⟨m, rest, _, _, _, ⟨r, _, h⟩ | ⟨_, h⟩⟩ <;> rw [h]
  · exact .refl s
  · exact (notePresented_keeps ..).after (queued _)
  · exact queued _

theorem makeRequest_keeps (q : Fin 8) (m : Made) (s : State) : Keeps s (makeRequest q m s) := by
  rw [makeRequest_eq]
  exact {}

theorem makeRequests_keeps (q : Fin 8) (ms : List Made) (s : State) : Keeps s (makeRequests q ms s) := by
  rw [makeRequests_eq]
  exact {}

theorem acceptResponse_keeps (k : Fin 32) (i : Issued) (r : Response) (s : State) :
    Keeps s (acceptResponse k i r s) := by
  have freed : Keeps s (freeTag k s) := {}
  unfold acceptResponse
  exact .ite freed ((raiseFault_keeps ..).after freed)

theorem complete_keeps (c : Completion) (result : Nat) (s : State) : Keeps s (complete c result s) := by
  unfold complete
  exact .ite {} ((makeRequest_keeps ..).after {})

/-- A command that is completed after what it has done. -/
theorem Keeps.completed (h : Keeps s t) (c : Completion) (result : Nat) : Keeps s (complete c result t) :=
  (complete_keeps ..).after h

/-! ## Timing -/

theorem boundary_keeps (r : Ref) (cause : BoundaryCause) (s : State) : Keeps s (boundary r cause s) := by
  cases r with
  | video => exact { timing := Timing.Sound.countVideo }
  | audio => exact {}

theorem setReference_keeps (r : Ref) (x : Reference) (s : State) : Keeps s (s.setReference r x) := by
  cases r <;> exact {}

theorem takeBoundary_keeps (r : Ref) (cause : BoundaryCause) (x : Reference) (event : Option RefState) (s : State) :
    Keeps s (takeBoundary r cause x event s) := by
  have made : Keeps s (boundary r cause (s.setReference r x)) := (boundary_keeps ..).after (setReference_keeps ..)
  cases event with
  | some st => exact (offer_keeps ..).after made
  | none => exact made

theorem fillSlot_keeps (i : Fin 7) (m : Option (MarkFunction × Fin 8)) (s : State) : Keeps s (fillSlot i m s) := by
  unfold fillSlot
  exact .ite (.refl s) (.ite ((offer_keeps ..).after {}) {})

/-! ## The label unit -/

/-- A label unit in which every record stands as it did. -/
theorem setLabel_keeps {x : Label} (clips : ∀ i, x.standing i = s.label.standing i)
    (order : x.order = s.label.order) (uplink : s.label.uplink.length ≤ 8 → x.uplink.length ≤ 8) :
    Keeps s (s.setLabel x) :=
  { label := fun h => h.of_standing clips order (uplink h.uplink_le) }

/-- One record changed, its standing kept. -/
theorem setClip_keeps {i : Fin 32} {c : Option Clip}
    (h : c.map Clip.standing = (s.label.clips[i]).map Clip.standing) : Keeps s (setClip i c s) := by
  refine setLabel_keeps (fun j => ?_) rfl id
  rw [Label.standing_set s.label _ i c rfl]
  split
  next same => rw [h, same, Label.standing]
  next => rfl

theorem freeClip_keeps (i : Fin 32) (s : State) : Keeps s (freeClip i s) :=
  { label := fun h => h.free rfl rfl rfl }

theorem dropBadClip_keeps (i : Fin 32) (s : State) : Keeps s (dropBadClip i s) := by
  unfold dropBadClip
  have freed := freeClip_keeps i s
  exact (raiseFault_keeps ..).after (freed.trans (setLabel_keeps (fun _ => rfl) rfl id))

theorem readClips_keeps (wanted : Clip → Bool) (s : State) : Keeps s (readClips wanted s) := by
  refine Keeps.foldl _ (fun s i => ?_) ..
  split
  · exact .ite (dropBadClip_keeps ..) (.refl s)
  · exact .refl s

theorem updateClips_keeps {wanted : Clip → Bool} {f : Clip → Clip} (h : ∀ c, (f c).standing = c.standing) :
    Keeps s (updateClips wanted f s) := by
  refine setLabel_keeps (fun i => ?_) rfl id
  rw [Label.standing, mapTable_get, Option.map_map, Label.standing]
  congr 1
  funext c
  simp only [Function.comp]
  split
  · exact h c
  · rfl

theorem mapClosing_standing (f : Closing → Closing) (c : Clip) : (c.mapClosing f).standing = c.standing := by
  simp [Clip.standing, Clip.mapClosing, Clip.isOpen]

theorem markPosted_keeps (i : Fin 32) (f : Closing → Closing) (s : State) : Keeps s (markPosted i f s) := by
  unfold markPosted
  split
  next c held => exact .ite (freeClip_keeps ..) (setClip_keeps (by simp [held, mapClosing_standing]))
  next => exact .refl s

theorem uplinkOnce_keeps (s : State) : Keeps s (uplinkOnce s).1 := by
  unfold uplinkOnce
  split
  · exact .refl s
  split
  · exact .refl s
  split
  · exact dropBadClip_keeps ..
  split
  · exact .refl s
  split
  · split
    next room =>
      refine (markPosted_keeps ..).after (setLabel_keeps (fun _ => rfl) rfl fun _ => ?_)
      rw [List.length_append]
      exact room
    next => exact .refl s
  · exact markPosted_keeps ..

theorem ringOnce_keeps (s : State) : Keeps s (ringOnce s).1 := by
  unfold ringOnce
  split
  · exact .refl s
  split
  · exact .refl s
  split
  · exact dropBadClip_keeps ..
  split
  · exact markPosted_keeps ..
  · exact .refl s

theorem uplinkSettle_keeps (s : State) : Keeps s (uplinkSettle s) :=
  .ite (.refl s) (settle_induction _ .refl uplinkOnce_keeps .trans ..)

theorem ringSettle_keeps (s : State) : Keeps s (ringSettle s) :=
  .ite (.refl s) (.ite (.refl s) (settle_induction _ .refl ringOnce_keeps .trans ..))

theorem postSettle_keeps (s : State) : Keeps s (postSettle s) := (ringSettle_keeps s).trans (uplinkSettle_keeps _)

theorem ringGiveUp_keeps (s : State) (i : Fin 32) : Keeps s (ringGiveUp s i) := by
  unfold ringGiveUp
  split
  · exact .refl s
  · exact .ite (.ite (dropBadClip_keeps ..) (markPosted_keeps ..)) (.refl s)

theorem ringGone_keeps (s : State) : Keeps s (ringGone s) :=
  .ite (.refl s) (.ite (.refl s) (Keeps.foldl _ ringGiveUp_keeps ..))

/-- The record closed leaves no OPEN clip on its camera. -/
theorem closeClip_sound {i : Fin 32} {c : Clip} (m : Capture) (h : s.label.Sound)
    (held : s.label.clips[i] = some c) (isOpen : c.isOpen = true) :
    (closeClip i m s).label.Sound ∧ ∀ j, (closeClip i m s).label.standing j ≠ some (true, c.camera) := by
  unfold closeClip
  simp only [held]
  exact h.close held isOpen rfl rfl rfl rfl

theorem tryOpen_sound {camera : Fin 8} (m : Capture) (split : Option Count16) (b : VideoBoundary)
    (h : s.label.Sound) (unopened : ∀ j, s.label.standing j ≠ some (true, camera)) :
    (tryOpen camera m split b s).label.Sound := by
  unfold tryOpen
  split
  next i free => exact h.open (Label.freeRecord_eq_some free) rfl unopened rfl rfl rfl
  next => rwa [(offer_changes ..).label]

theorem tryOpen_report (camera : Fin 8) (m : Capture) (split : Option Count16) (b : VideoBoundary) (s : State) :
    s.report.Sound → (tryOpen camera m split b s).report.Sound := by
  unfold tryOpen
  split
  · exact id
  · exact (offer_keeps ..).report

theorem tryOpen_keeps {camera : Fin 8} (m : Capture) (split : Option Count16) (b : VideoBoundary)
    (unopened : ∀ j, s.label.standing j ≠ some (true, camera)) : Keeps s (tryOpen camera m split b s) :=
  .of_reported ((tryOpen_changes ..).mono (by decide)) (tryOpen_report camera m split b s)
    fun h => tryOpen_sound m split b h unopened

theorem closeClip_keeps {camera : Fin 8} {i : Fin 32} (m : Capture) (h : s.label.openOf camera = some i) :
    Keeps s (closeClip i m s) := by
  obtain ⟨c, held, isOpen, _⟩ := Label.openOf_eq_some h
  have changes := closeClip_changes i m s
  refine .of_reported (changes.mono (by decide)) ?_ fun sound => (closeClip_sound m sound held isOpen).1
  rw [changes.report]
  exact id

theorem markSplit_keeps (camera : Fin 8) (m : Capture) (b : VideoBoundary) (s : State) :
    Keeps s (markSplit camera m b s) := by
  have changes := markSplit_changes camera m b s
  unfold markSplit at changes ⊢
  split
  next i opened =>
    rw [opened] at changes
    obtain ⟨c, held, isOpen, rfl⟩ := Label.openOf_eq_some opened
    refine .of_reported (changes.mono (by decide)) ?_ fun sound => ?_
    · exact fun h => tryOpen_report _ _ _ _ _ ((closeClip_keeps m opened).report h)
    · have ⟨closed, unopened⟩ := closeClip_sound m sound held isOpen
      exact tryOpen_sound m _ b closed unopened
  next none => exact tryOpen_keeps m _ b (Label.openOf_eq_none none)

theorem markIn_keeps (camera : Fin 8) (m : Capture) (b : VideoBoundary) (s : State) :
    Keeps s (markIn camera m b s) := by
  unfold markIn
  split
  · exact markSplit_keeps ..
  next none => exact tryOpen_keeps m _ b (Label.openOf_eq_none none)

theorem strayMark_keeps (s : State) : Keeps s (strayMark s) := setLabel_keeps (fun _ => rfl) rfl id

theorem markOut_keeps (camera : Fin 8) (m : Capture) (s : State) : Keeps s (markOut camera m s) := by
  unfold markOut
  split
  next i opened => exact closeClip_keeps m opened
  next => exact strayMark_keeps s

theorem markGood_keeps (camera : Fin 8) (s : State) : Keeps s (markGood camera s) := by
  unfold markGood
  split
  next i _ =>
    refine setClip_keeps ?_
    rw [Option.map_map]
    rfl
  next =>
    split
    next i _ =>
      split
      next c held => exact .ite (setClip_keeps (by rw [held]; rfl)) (strayMark_keeps s)
      next => exact strayMark_keeps s
    next => exact strayMark_keeps s

theorem applyMark_keeps (f : MarkFunction) (camera : Fin 8) (m : Capture) (b : VideoBoundary) (s : State) :
    Keeps s (applyMark f camera m b s) := by
  cases f with
  | none => exact .refl s
  | markIn => exact markIn_keeps ..
  | markOut => exact markOut_keeps ..
  | toggle =>
    change Keeps s (match s.label.openOf camera with | some _ => _ | none => _)
    split
    · exact markOut_keeps ..
    · exact markIn_keeps ..
  | good => exact markGood_keeps ..
  | split => exact markSplit_keeps ..

theorem takeSlot_keeps (b : VideoBoundary) (s : State) (i : Fin 7) : Keeps s (takeSlot b s i) := by
  unfold takeSlot
  split
  · have emptied : Keeps s { s with timing := { s.timing with slots := s.timing.slots.set i none } } := {}
    dsimp only
    split
    · exact (applyMark_keeps ..).after emptied
    · exact emptied
  · exact .refl s

theorem countClip_standing (cameras : Vector CameraState 8) (c : Clip) :
    (countClip cameras c).standing = c.standing := by
  unfold countClip
  split
  next openC =>
    split <;> rfl
  next closing shut => simp [Clip.standing, Clip.isOpen, shut]

theorem setCameras_keeps (x : Vector CameraState 8) (s : State) :
    Keeps s (s.setLabel { s.label with cameras := x }) :=
  setLabel_keeps (fun _ => rfl) rfl id

theorem setPeriod_keeps (tc : Timecode) (count : Count32) (s : State) :
    Keeps s (s.setLabel { s.label with periodTimecode := tc, periodVideo := count }) :=
  setLabel_keeps (fun _ => rfl) rfl id

theorem countFrames_keeps (s : State) : Keeps s (countFrames s) := by
  unfold countFrames
  refine (setCameras_keeps ..).after ?_
  exact (updateClips_keeps (countClip_standing _)).after (readClips_keeps ..)

theorem noteUnlocked_keeps (b : VideoBoundary) (s : State) : Keeps s (noteUnlocked b s) :=
  .ite (.refl s) (updateClips_keeps fun _ => rfl)

theorem applyLabels_keeps (s : State) : Keeps s (applyLabels s) := by
  unfold applyLabels
  split
  · exact .refl s
  · refine { timing := fun h => ?_ }
    dsimp only
    split <;> exact h

theorem labelBoundary_keeps (b : VideoBoundary) (s : State) : Keeps s (labelBoundary b s) := by
  unfold labelBoundary
  dsimp only
  refine (postSettle_keeps _).after ((setPeriod_keeps ..).after ?_)
  refine (Keeps.foldl _ (takeSlot_keeps b) ..).after ((applyLabels_keeps _).after ?_)
  exact (noteUnlocked_keeps ..).after ((postSettle_keeps _).after (countFrames_keeps s))

theorem peakOffer_keeps (bus : Fin 16) (peak : Nat) (s : State) : Keeps s (peakOffer bus peak s) :=
  .ite (.refl s) ((readClips_keeps ..).trans (updateClips_keeps fun _ => rfl))

theorem pictureAdmitted_keeps (n : Count32) (camera : Option (Fin 8)) (s : State) :
    Keeps s (pictureAdmitted n camera s) := by
  cases camera with
  | none => exact .refl s
  | some k => exact (readClips_keeps ..).trans (updateClips_keeps fun _ => rfl)

theorem pictureDropped_keeps (camera : Option (Fin 8)) (s : State) : Keeps s (pictureDropped camera s) := by
  cases camera with
  | none => exact .refl s
  | some k => exact (readClips_keeps ..).trans (updateClips_keeps fun _ => rfl)

theorem ringDropBad_keeps (s : State) : Keeps s (ringDropBad s).1 := by
  unfold ringDropBad
  split
  · exact .refl s
  split
  · split
    · exact (uplinkSettle_keeps _).after (dropBadClip_keeps ..)
    · exact .refl s
  · exact .refl s

theorem presentLabel_keeps (s : State) : Keeps s (presentLabel s) := by
  unfold presentLabel
  split
  · exact .refl s
  split
  · exact .refl s
  · exact .ite ((makeRequest_keeps ..).after (setLabel_keeps (fun _ => rfl) rfl id)) (.refl s)

theorem labelLanded_keeps (s : State) : Keeps s (labelLanded s) :=
  (postSettle_keeps _).after (setLabel_keeps (fun _ => rfl) rfl id)

theorem ringDone_keeps (s : State) : Keeps s (ringDone s) := by
  unfold ringDone
  split
  · exact .ite (dropBadClip_keeps ..) (markPosted_keeps ..)
  · exact .refl s
  · exact .refl s

theorem labelReturned_keeps (i : Issued) (r : Response) (s : State) : Keeps s (labelReturned i r s) := by
  unfold labelReturned
  have counted (t : State) (x y : Count16) (z : Nat) :
      Keeps t (t.setLabel { t.label with written := x, consumed := y, slot := z }) :=
    setLabel_keeps (fun _ => rfl) rfl id
  refine .ite (labelLanded_keeps s) (.ite ?_ (.ite (makeRequest_keeps ..) ?_))
  · exact (labelLanded_keeps _).after ((counted ..).after (ringDone_keeps s))
  · exact (labelLanded_keeps _).after (ringDone_keeps s)

end Sys2Proof.Machine
end

section
/-! SUPPORT. The invariants that every step keeps: the stream governor, the mixer, the receivers and the lines. -/

set_option Elab.async false

namespace Sys2Proof.Machine

variable {s t u : State}

theorem setLine_keeps (l : LineId) (x : Line) (s : State) : Keeps s (s.setLine l x) :=
  .of_changes ((State.setLine_changes ..).mono (by decide))

theorem setList_keeps (l : LineId) (x : SendList) (s : State) : Keeps s (s.setList l x) := setLine_keeps ..

theorem setReceiver_keeps (l : LineId) (x : Receiver) (s : State) : Keeps s (s.setReceiver l x) := setLine_keeps ..

theorem setMixer_keeps (x : Mixer) (s : State) : Keeps s (s.setMixer x) := {}

theorem setQueue_keeps (q : Fin 8) (x : RequestQueue) (s : State) : Keeps s (s.setQueue q x) := {}

/-! ## The stream governor -/

theorem Stream.Sound.notices_le {x : Stream} (h : x.Sound) : x.notices.length ≤ 4 := by
  obtain ⟨_, _, _, notices, _⟩ := h
  exact notices

theorem setStream_keeps {n : Fin 4} {x : Stream} (h : (s.stream n).Sound → x.Sound) : Keeps s (s.setStream n x) where
  governor sound m := by
    rw [State.setStream_governor]
    dsimp only
    rw [getElem_set_fin]
    split
    next same => exact h (sound n)
    next => exact sound m

theorem admitPicture_keeps {n : Fin 4} {m : Marker} (ring : Nat) (fits : (s.stream n).fits m.length = true) :
    Keeps s (admitPicture n ring m s) := by
  unfold admitPicture
  exact (pictureAdmitted_keeps ..).after (setStream_keeps fun h => h.enqueue fits rfl rfl rfl rfl rfl rfl)

theorem dropPicture_keeps (n : Fin 4) (s : State) : Keeps s (dropPicture n s) := by
  unfold dropPicture
  dsimp only
  refine (pictureDropped_keeps ..).after ((offer_keeps ..).after (setStream_keeps fun h => ?_))
  exact h.of_core rfl rfl rfl rfl (addNotice_length _ _ _ h.notices_le)

theorem setCounter_keeps (n : Fin 4) (count : Count32) (s : State) :
    Keeps s (s.setStream n { s.stream n with counter := count }) :=
  setStream_keeps fun h => h.of_core rfl rfl rfl rfl h.notices_le

theorem markerWrite_keeps (n : Fin 4) (ring : Nat) (a : BeatAddr) (b : Beat) (s : State) :
    Keeps s (markerWrite n ring a b s) := by
  unfold markerWrite
  dsimp only
  have counted := setCounter_keeps n ((s.stream n).counter + 1) s
  split
  · split
    next fits => exact (admitPicture_keeps ring fits).after counted
    next => exact (dropPicture_keeps ..).after counted
  · exact raiseFault_keeps ..

theorem payloadTap_keeps (n : Fin 4) (ring : Nat) (written : List Nat) (s : State) :
    Keeps s (payloadTap n ring written s) := by
  unfold payloadTap
  exact Keeps.after (Keeps.foldl _ (fun _ _ => offer_keeps ..) ..) (setStream_keeps fun h => h.tapped ring written)

theorem endClaim_keeps (n : Fin 4) (withData : Bool) (s : State) : Keeps s (endClaim n withData s).1 := by
  unfold endClaim
  split
  · exact .refl s
  · exact setStream_keeps fun h => h.endClaim withData

theorem changeEvent_keeps (n : Fin 4) (s : State) : Keeps s (changeEvent n s) := by
  unfold changeEvent
  exact (offer_keeps ..).after {}

theorem streamWindowChanged_keeps (n : Fin 4) (x y : Option WindowEntry) (s : State) :
    Keeps s (streamWindowChanged n x y s) := by
  have changed : Keeps s (changeEvent n (s.setStream n (s.stream n).flush)) :=
    (changeEvent_keeps ..).after (setStream_keeps Stream.Sound.flush)
  unfold streamWindowChanged
  split
  · exact .refl s
  · exact changed
  · exact .ite (.refl s) changed

theorem setKeyRequest_keeps (n : Fin 4) (s : State) : Keeps s (setKeyRequest n s) :=
  .ite (.refl s) (setStream_keeps fun h => h.of_core rfl rfl rfl rfl h.notices_le)

theorem streamsAtBoundary_keeps (s : State) : Keeps s
    { s with governor := { s.governor with streams := mapTable Stream.atBoundary s.governor.streams } } where
  governor sound n := by
    rw [mapTable_get]
    exact (sound n).atBoundary

/-! ## The mixer -/

theorem deliverReturn_keeps (f : List Byte) (l : LineId) (s : State) : Keeps s (deliverReturn f l s) :=
  .of_changes ((deliverReturn_changes ..).mono (by decide))

theorem mixerLos_keeps (l : LineId) (s : State) : Keeps s (mixerLos l s) :=
  .of_changes ((mixerLos_changes ..).mono (by decide))

theorem parityFaults_keeps (f : MixFrame) (s : State) : Keeps s (parityFaults f s) :=
  Keeps.foldl _ (fun s _ => .ite (raiseFault_keeps ..) (.refl s)) ..

theorem saturationEvent_keeps (f : MixFrame) (s : State) : Keeps s (saturationEvent f s) := by
  unfold saturationEvent
  dsimp only
  exact .ite (.refl s) (offer_keeps ..)

theorem underrunEvent_keeps (f : MixFrame) (s : State) : Keeps s (underrunEvent f s) := by
  unfold underrunEvent
  dsimp only
  exact .ite (.refl s) (offer_keeps ..)

theorem queueOutput_keeps (n : Count32) (out : BusFrame) (s : State) : Keeps s (queueOutput n out s) := by
  unfold queueOutput
  split
  · exact .refl s
  · exact .ite ((makeRequests_keeps ..).after (setMixer_keeps ..)) (raiseFault_keeps ..)

theorem holdFrame_keeps (n : Count32) (out : BusFrame) (s : State) : Keeps s (holdFrame n out s) :=
  .of_changes ((holdFrame_changes ..).mono (by decide))

theorem offerPeaks_keeps (out : BusFrame) (s : State) : Keeps s (offerPeaks out s) :=
  Keeps.foldl _ (fun _ _ => peakOffer_keeps ..) ..

theorem closeFrame_keeps (s : State) : Keeps s (closeFrame s) := by
  unfold closeFrame
  dsimp only
  refine (postSettle_keeps _).after ((offerPeaks_keeps ..).after ((holdFrame_keeps ..).after ?_))
  refine (queueOutput_keeps ..).after (Keeps.after (t := underrunEvent _ _) (setMixer_keeps ..) ?_)
  refine (underrunEvent_keeps ..).after ((saturationEvent_keeps ..).after ?_)
  exact Keeps.after (t := parityFaults _ _) (setMixer_keeps ..) (parityFaults_keeps ..)

theorem mixerBoundary_keeps (s : State) : Keeps s (mixerBoundary s) :=
  (setMixer_keeps ..).after (closeFrame_keeps s)

theorem busWriteDone_keeps (n : Count32) (s : State) : Keeps s (busWriteDone n s) := setMixer_keeps ..

theorem dropBusWrites_keeps (s : State) : Keeps s (dropBusWrites s) := {}

/-! ## The receivers -/

theorem measureOffer_keeps (l : LineId) (f : Totals → Totals) (s : State) : Keeps s (measureOffer l f s) :=
  .ite {} (.refl s)

theorem giveLos_keeps (l : LineId) (d : Bool) (s : State) : Keeps s (giveLos l d s) := .ite {} (.refl s)

theorem signalEvent_keeps (l : LineId) (r : Receiver) (s : State) : Keeps s (signalEvent l r s) :=
  .ite (.refl s) (offer_keeps ..)

theorem declareLos_keeps (l : LineId) (s : State) : Keeps s (declareLos l s) := by
  unfold declareLos
  dsimp only
  refine (signalEvent_keeps ..).after ?_
  split
  · exact setReceiver_keeps ..
  · exact (mixerLos_keeps ..).after ((giveLos_keeps ..).after (setReceiver_keeps ..))

theorem ignoreFrame_keeps (l : LineId) (s : State) : Keeps s (ignoreFrame l s) := setReceiver_keeps ..

theorem deliverFrame_keeps (l : LineId) (f : List Byte) (s : State) : Keeps s (deliverFrame l f s) := by
  unfold deliverFrame
  dsimp only
  split
  · exact .ite (deliverReturn_keeps ..) (ignoreFrame_keeps ..)
  · exact setKeyRequest_keeps ..
  · exact ignoreFrame_keeps ..

theorem judgeCandidate_keeps (l : LineId) (s : State) : Keeps s (judgeCandidate l s) := by
  unfold judgeCandidate goodOffer
  dsimp only
  split
  · split
    · refine (deliverFrame_keeps ..).after ((signalEvent_keeps ..).after ?_)
      exact (measureOffer_keeps ..).after (setReceiver_keeps ..)
    · refine (signalEvent_keeps ..).after ((measureOffer_keeps ..).after ?_)
      exact (Keeps.ite (giveLos_keeps ..) (.refl _)).after (setReceiver_keeps ..)
  · exact setReceiver_keeps ..

theorem judgeLocked_keeps (l : LineId) (s : State) : Keeps s (judgeLocked l s) := by
  unfold judgeLocked goodOffer
  dsimp only
  split
  · exact (deliverFrame_keeps ..).after ((measureOffer_keeps ..).after (setReceiver_keeps ..))
  · refine Keeps.after (.ite (setReceiver_keeps ..) ?_) (measureOffer_keeps ..)
    exact (signalEvent_keeps ..).after (setReceiver_keeps ..)

/-! ## The lines -/

theorem startJob_keeps (l : LineId) (n : Option (Fin 4)) (x y z : Nat) (rs : List MemRequest)
    (p : Nat → Nat → Purpose) (s : State) : Keeps s (startJob l n x y z rs p s) :=
  (makeRequests_keeps ..).after (setLine_keeps ..)

theorem listError_keeps (l : LineId) (a : Nat) (s : State) : Keeps s (listError l a s) :=
  (setList_keeps ..).after (offer_keeps ..)

theorem listDone_keeps (l : LineId) (s : State) : Keeps s (listDone l s) :=
  (setList_keeps ..).after (offer_keeps ..)

theorem fetchDescriptor_keeps (l : LineId) (s : State) : Keeps s (fetchDescriptor l s) :=
  (makeRequest_keeps ..).after (setLine_keeps ..)

theorem descriptorReserved_keeps (l : LineId) (d : Descriptor) (s : State) : Keeps s (descriptorReserved l d s) :=
  .ite (setList_keeps ..) (.ite (listError_keeps ..) ((fetchDescriptor_keeps ..).after (setList_keeps ..)))

theorem judgeDescriptor_keeps (l : LineId) (r : Response) (s : State) : Keeps s (judgeDescriptor l r s) :=
  .ite (listError_keeps ..) (.ite
    (.ite ((fetchDescriptor_keeps ..).after (setList_keeps ..)) ((offer_keeps ..).after (setList_keeps ..)))
    (.ite (setList_keeps ..) (listError_keeps ..)))

theorem descriptorReturned_keeps (i : Issued) (r : Response) (s : State) : Keeps s (descriptorReturned i r s) := by
  unfold descriptorReturned
  split
  · exact .ite ((judgeDescriptor_keeps ..).after (setList_keeps ..)) (.refl s)
  · exact .refl s

theorem setNext_keeps (l : LineId) (d : Decided) (s : State) : Keeps s (setNext l d s) := setLine_keeps ..

/-- The uplink gives copies away (R163). -/
theorem takeCopies_keeps (s : State) :
    Keeps s (s.setLabel { s.label with uplink := s.label.uplink.drop 8 }) :=
  setLabel_keeps (fun _ => rfl) rfl fun h => by
    rw [List.length_drop]
    omega

theorem decideLabel_keeps (l : LineId) (s : State) : Keeps s (decideLabel l s) := by
  unfold decideLabel
  dsimp only
  exact (postSettle_keeps _).after ((setLine_keeps ..).after (takeCopies_keeps s))

theorem decideSkip_keeps (l : LineId) (n : Fin 4) (x : Notice) (xs : List Notice) (s : State) :
    Keeps s (decideSkip l n x xs s) :=
  (setNext_keeps ..).after (setStream_keeps fun h => h.of_core rfl rfl rfl rfl (Nat.zero_le _))

theorem decideLive_keeps {n : Fin 4} {w v : WindowEntry} {g : Grant} {x : Stream} (l : LineId)
    (granted : (s.stream n).grant n w = some (g, x)) : Keeps s (decideLive l v g x s) := by
  have same : g.stream = n := by
    unfold Stream.grant at granted
    split at granted
    · split at granted
      · obtain ⟨rfl, _⟩ := Prod.mk.inj (Option.some.inj granted)
        rfl
      · cases granted
    · cases granted
  unfold decideLive
  dsimp only
  refine (startJob_keeps ..).after ((setNext_keeps ..).after (setStream_keeps fun h => ?_))
  rw [same] at h
  exact h.grant granted

theorem decideFile_keeps (l : LineId) (d : Descriptor) (s : State) : Keeps s (decideFile l d s) := by
  unfold decideFile
  dsimp only
  refine Keeps.after (.ite (descriptorReserved_keeps ..) (.refl _)) ?_
  exact (startJob_keeps ..).after ((setNext_keeps ..).after (setList_keeps ..))

theorem decideFileOrFill_keeps (l : LineId) (s : State) : Keeps s (decideFileOrFill l s) := by
  unfold decideFileOrFill
  split
  · exact decideFile_keeps ..
  · exact setNext_keeps ..

theorem claimFor_eq_some {n : Fin 4} {w : WindowEntry} {g : Grant} {x : Stream}
    (h : s.claimFor n = some (w, g, x)) : (s.stream n).grant n w = some (g, x) := by
  unfold State.claimFor at h
  split at h
  · cases h
  · split at h
    · obtain ⟨⟨g', x'⟩, granted, e⟩ := Option.map_eq_some_iff.mp h
      cases e
      exact granted
    · cases h

theorem decideStream_keeps (l : LineId) (n : Fin 4) (s : State) : Keeps s (decideStream l n s) := by
  unfold decideStream
  split
  · exact decideSkip_keeps ..
  · split
    next claimed => exact decideLive_keeps l (claimFor_eq_some claimed)
    next => exact decideFileOrFill_keeps ..

theorem decideFrame_keeps (l : LineId) (s : State) : Keeps s (decideFrame l s) := by
  unfold decideFrame
  refine .ite (decideLabel_keeps ..) ?_
  split
  · exact decideStream_keeps ..
  · exact decideFileOrFill_keeps ..

theorem sendFrame_keeps (l : LineId) (n : Count32) (d : Decided) (p : List Byte) (x : Bool) (s : State) :
    Keeps s (sendFrame l n d p x s) := by
  unfold sendFrame
  dsimp only
  exact (measureOffer_keeps ..).after (setLine_keeps ..)

theorem chooseFrame_keeps (l : LineId) (n : Count32) (s : State) : Keeps s (chooseFrame l n s) := by
  unfold chooseFrame
  dsimp only
  split
  · exact (sendFrame_keeps ..).after (setLine_keeps ..)
  · split
    · exact sendFrame_keeps ..
    · split
      · exact (sendFrame_keeps ..).after (setLine_keeps ..)
      · exact (sendFrame_keeps ..).after (setLine_keeps ..)
      · exact sendFrame_keeps ..

theorem frameStart_keeps (l : LineId) (n : Count32) (s : State) : Keeps s (frameStart l n s) :=
  Keeps.after (t := chooseFrame l n s) (.ite (.refl _) (decideFrame_keeps ..)) (chooseFrame_keeps ..)

theorem settleLine_keeps (l : LineId) (s : State) : Keeps s (settleLine l s) := setLine_keeps ..

theorem functionChanged_keeps (l : LineId) (o : LineOutcome) (s : State) : Keeps s (functionChanged l o s) :=
  (settleLine_keeps ..).after ((postSettle_keeps _).after (offer_keeps ..))

theorem enterHalted_keeps (l : LineId) (s : State) : Keeps s (enterHalted l s) :=
  (functionChanged_keeps ..).after (setLine_keeps ..)

theorem startLine_keeps (l : LineId) (s : State) : Keeps s (startLine l s) :=
  (functionChanged_keeps ..).after (setLine_keeps ..)

theorem haltLine_keeps (l : LineId) (s : State) : Keeps s (haltLine l s) :=
  .ite (setLine_keeps ..) (enterHalted_keeps ..)

theorem endTransmission_keeps (l : LineId) (f : TxFrame) (s : State) : Keeps s (endTransmission l f s) := by
  unfold endTransmission
  dsimp only
  exact Keeps.after (.ite (listDone_keeps ..) (.refl _)) (setLine_keeps ..)

theorem afterFrame_keeps (l : LineId) (s : State) : Keeps s (afterFrame l s) := by
  unfold afterFrame
  dsimp only
  split
  · exact .ite (.refl s) (frameStart_keeps ..)
  · exact enterHalted_keeps ..
  · exact .refl s
  · exact .refl s

theorem applyLine_keeps (l : LineId) (s : State) : Keeps s (applyLine l s) := by
  unfold applyLine
  dsimp only
  split
  · exact .refl s
  · refine Keeps.after (.ite (.refl _) (postSettle_keeps _)) ?_
    exact Keeps.after (.ite (declareLos_keeps ..) (.refl _)) (setLine_keeps ..)

theorem lineBoundary_keeps (l : LineId) (b : AudioBoundary) (s : State) : Keeps s (lineBoundary l b s) := by
  unfold lineBoundary
  dsimp only
  refine (settleLine_keeps ..).after (Keeps.after (.ite ?_ (.refl _)) ((setLine_keeps ..).after (applyLine_keeps ..)))
  exact (frameStart_keeps ..).after (setLine_keeps ..)

theorem payloadJobReturned_keeps (l : LineId) (j : ReadJob) (s : State) : Keeps s (payloadJobReturned l j s) := by
  unfold payloadJobReturned
  dsimp only
  have noted := setLine_keeps l ((s.line l).setJob j) s
  split
  · split
    · exact (setLine_keeps ..).after ((endClaim_keeps ..).after noted)
    · exact noted
  · exact noted

theorem payloadReturned_keeps (i : Issued) (r : Response) (s : State) : Keeps s (payloadReturned i r s) := by
  unfold payloadReturned
  split
  · refine .ite (.refl s) ?_
    split
    · exact payloadJobReturned_keeps ..
    · exact .refl s
  · exact .refl s

theorem fileJobReturned_keeps (l : LineId) (j : ReadJob) (a : BeatAddr) (ok : Bool) (s : State) :
    Keeps s (fileJobReturned l j a ok s) := by
  unfold fileJobReturned
  dsimp only
  have noted := setLine_keeps l ((s.line l).setJob j) s
  refine .ite (Keeps.after (.ite (setLine_keeps ..) (.refl _)) noted) ?_
  exact Keeps.after (.ite (listError_keeps ..) (.refl _)) ((setLine_keeps ..).after noted)

theorem fileReturned_keeps (i : Issued) (r : Response) (s : State) : Keeps s (fileReturned i r s) := by
  unfold fileReturned
  split
  · refine .ite (.refl s) ?_
    split
    · exact fileJobReturned_keeps ..
    · exact .refl s
  · exact .refl s

end Sys2Proof.Machine
end

section
/-! SUPPORT. The invariants that every step keeps: the report and command units, settings, the measurement, the window
table and the path unit. -/

set_option Elab.async false

namespace Sys2Proof.Machine

variable {s t u : State}

/-! ## Reports and commands -/

theorem presentPost_keeps (r : Record) (s : State) : Keeps s (presentPost r s) :=
  (makeRequest_keeps ..).after {}

theorem postCancelled_keeps (s : State) : Keeps s (postCancelled s) := {}

theorem postReturned_keeps (i : Issued) (r : Response) (s : State) : Keeps s (postReturned i r s) := by
  unfold postReturned
  refine .ite (postCancelled_keeps s) (.ite {} ?_)
  split
  · exact makeRequest_keeps ..
  · exact {}

theorem fetchCommand_keeps (s : State) : Keeps s (fetchCommand s) :=
  .ite ((makeRequest_keeps ..).after {}) (.refl s)

theorem takeProducer_keeps (v : Count16) (s : State) : Keeps s (takeProducer v s) :=
  .ite {} ((raiseFault_keeps ..).after {})

theorem setCommand_keeps (x : Command) (s : State) : Keeps s { s with command := x } := {}

theorem recordReturned_keeps (i : Issued) (r : Response) (s : State) : Keeps s (recordReturned i r s) := by
  unfold recordReturned
  refine .ite (.refl s) (.ite ?_ (complete_keeps ..))
  dsimp only
  split
  · exact setCommand_keeps ..
  · exact (setCommand_keeps ..).completed ..

theorem finishCommand_keeps (s : State) : Keeps s (finishCommand s) :=
  (fetchCommand_keeps _).after (setCommand_keeps ..)

theorem completionReturned_keeps (i : Issued) (r : Response) (s : State) : Keeps s (completionReturned i r s) := by
  unfold completionReturned
  refine .ite (.refl s) ?_
  split
  · exact makeRequest_keeps ..
  · exact finishCommand_keeps s

theorem startGather_keeps (g : Option (Fin 10)) (rs : List Made) (s : State) : Keeps s (startGather g rs s) :=
  (makeRequests_keeps ..).after (setCommand_keeps ..)

/-! ## Settings -/

theorem gathered_keeps (index : Nat) (r : Response) {decided : Option (Fin 10) → List Byte → State → State}
    (h : ∀ g bs s, Keeps s (decided g bs s)) (s : State) : Keeps s (gathered index r decided s) := by
  unfold gathered
  refine .ite (.refl s) ?_
  split
  · exact .refl s
  · exact .ite (setCommand_keeps ..) (.ite (complete_keeps ..) (h ..))

theorem stageStream_keeps (n : Fin 4) (bs : List Byte) (s : State) : Keeps s (stageStream n bs s) := by
  unfold stageStream
  split
  · exact complete_keeps ..
  · refine (complete_keeps ..).after (setStream_keeps fun h => ?_)
    exact h.of_core rfl rfl rfl rfl h.notices_le

theorem stageLine_keeps (l : LineId) (bs : List Byte) (s : State) : Keeps s (stageLine l bs s) := by
  unfold stageLine
  split
  · exact complete_keeps ..
  · exact .ite (complete_keeps ..) ((setLine_keeps ..).completed ..)

theorem stageTiming_keeps (bs : List Byte) (s : State) : Keeps s (stageTiming bs s) := by
  unfold stageTiming
  split
  · exact complete_keeps ..
  · exact Keeps.completed {} ..

theorem stageLabels_keeps (bs : List Byte) (s : State) : Keeps s (stageLabels bs s) := by
  unfold stageLabels
  split
  · exact complete_keeps ..
  · exact Keeps.completed {} ..

theorem stageRoutes_keeps (bs : List Byte) (s : State) : Keeps s (stageRoutes bs s) := by
  unfold stageRoutes
  split
  · exact complete_keeps ..
  · exact Keeps.completed {} ..

theorem stageGroup_keeps (g : Fin 10) (bs : List Byte) (s : State) : Keeps s (stageGroup g bs s) := by
  unfold stageGroup
  split
  · exact stageTiming_keeps ..
  · exact stageLabels_keeps ..
  · exact stageStream_keeps ..
  · exact stageStream_keeps ..
  · exact stageStream_keeps ..
  · exact stageStream_keeps ..
  · exact stageLine_keeps ..
  · exact stageLine_keeps ..
  · exact stageLine_keeps ..
  · exact stageRoutes_keeps ..

theorem settingsReturned_keeps (i : Issued) (r : Response) (s : State) : Keeps s (settingsReturned i r s) := by
  unfold settingsReturned
  split
  · refine gathered_keeps _ _ (fun g bs s => ?_) s
    cases g with
    | some g => exact .ite (.refl s) (stageGroup_keeps ..)
    | none => exact .refl s
  · exact .refl s

theorem firstFailure_eq_none_iff {checks : List (Nat × Bool)} :
    firstFailure checks = none ↔ ∀ c ∈ checks, c.2 = false := by
  induction checks with
  | nil => simp [firstFailure]
  | cons c rest ih => cases bad : c.2 <;> simp [firstFailure, bad, ih]

/-- The checks of R55 are those of a valid timecode of the rate. -/
theorem jamChecks_pass_iff {x : Timecode} {r : VideoRate} :
    firstFailure (jamChecks x r) = none ↔ x.valid r = true := by
  simp [jamChecks, firstFailure_eq_none_iff, Timecode.valid, and_assoc]

/-! ## The measurement -/

theorem settleIntervals_keeps (s : State) : Keeps s (settleIntervals s) := by
  unfold settleIntervals
  dsimp only
  refine Keeps.after (t := List.foldl settleInterval s s.fault.writes) {} ?_
  exact Keeps.foldl _ (fun s _ => .ite (offer_keeps ..) (.refl s)) ..

theorem blockDone_keeps (serial : Nat) (s : State) : Keeps s (blockDone serial s) :=
  (settleIntervals_keeps _).after {}

theorem blockCancelled_keeps (serial : Nat) (l : LineId) (again : Bool) (s : State) :
    Keeps s (blockCancelled serial l again s) :=
  .ite (makeRequest_keeps ..) (blockDone_keeps ..)

theorem blockReturned_keeps (i : Issued) (r : Response) (s : State) : Keeps s (blockReturned i r s) := by
  unfold blockReturned
  split
  · exact .ite (makeRequest_keeps ..) (blockDone_keeps ..)
  · exact .refl s

theorem timerBoundary_keeps (b : AudioBoundary) (s : State) : Keeps s (timerBoundary b s) := by
  unfold timerBoundary
  have counted : Keeps s (s.setFault s.fault.countFrame) := {}
  split
  · exact .refl s
  · exact {}
  · exact Keeps.after (.ite ((makeRequests_keeps ..).after {}) (.refl _)) counted

theorem measWindowGone_keeps (s : State) : Keeps s (measWindowGone s) := by
  unfold measWindowGone dropBlockWrites
  dsimp only
  refine Keeps.after (Keeps.foldl _ (fun s m => ?_) ..) ((setQueue_keeps ..).after {})
  split
  · exact blockDone_keeps ..
  · exact .refl s

/-! ## The window table -/

theorem markStale_keeps (wanted : Purpose → Bool) (s : State) : Keeps s (markStale wanted s) := by
  have changed (pool : Vector (Option Issued) 32) : Keeps s { s with path := { s.path with pool := pool } } := {}
  exact changed _

theorem resetLabelRing_keeps (s : State) :
    Keeps s (s.setLabel { s.label with written := 0, consumed := 0, slot := 0 }) :=
  setLabel_keeps (fun _ => rfl) rfl id

theorem labelWindowChanged_keeps (s : State) : Keeps s (labelWindowChanged s) := by
  unfold labelWindowChanged stopWaitingLabel
  refine (postSettle_keeps _).after ((ringGone_keeps _).after ?_)
  exact (setQueue_keeps ..).after ((markStale_keeps ..).after (resetLabelRing_keeps s))

theorem mixerReaction_keeps (s : State) : Keeps s (mixerReaction s) :=
  .ite (.refl s) (.ite (.refl s) (dropBusWrites_keeps s))

theorem labelReaction_keeps (old s : State) : Keeps s (labelReaction old s) :=
  .ite (.refl s) (.ite (.refl s) (labelWindowChanged_keeps s))

theorem governorReaction_keeps (old s : State) : Keeps s (governorReaction old s) :=
  .ite (.refl s) (Keeps.foldl _ (fun _ _ => streamWindowChanged_keeps ..) ..)

theorem reportReaction_keeps (old s : State) : Keeps s (reportReaction old s) :=
  .ite (.refl s) (.ite (.refl s) ((markStale_keeps ..).after {}))

theorem faultReaction_keeps (old s : State) : Keeps s (faultReaction old s) :=
  .ite (.refl s) (.ite (.refl s) (.ite (setQueue_keeps ..) (measWindowGone_keeps s)))

theorem applyTable_keeps {table : Vector WindowEntry 16} (h : firstBadEntry s.controlPage [] table.toList = none) :
    Keeps s (applyTable table s) := by
  have applied : Keeps s
      { s with path := { s.path with windows := table, parityBad := Vector.replicate 16 false } } :=
    { table := fun _ => h }
  unfold applyTable
  dsimp only
  refine (faultReaction_keeps ..).after ((reportReaction_keeps ..).after ((governorReaction_keeps ..).after ?_))
  exact (labelReaction_keeps ..).after ((mixerReaction_keeps _).after applied)

theorem tableReturned_keeps (i : Issued) (r : Response) (s : State) : Keeps s (tableReturned i r s) := by
  unfold tableReturned
  split
  · refine .ite (.refl s) (gathered_keeps _ _ (fun g bs s => ?_) s)
    unfold tableGathered
    dsimp only
    split
    · exact complete_keeps ..
    next passed => exact (applyTable_keeps passed).completed ..
  · exact .refl s

/-! ## The path unit -/

theorem forwardRequest_keeps (r : Request) (h : s.path.forward.length < 32) : Keeps s (forwardRequest r s) where
  bounds := fun ⟨_, lockout⟩ => ⟨by
    change (s.path.forward ++ [r]).length ≤ 32
    rw [List.length_append]
    exact h, lockout⟩

theorem interceptRead_keeps (r : Request) (beats : List Word) (s : State) : Keeps s (interceptRead r beats s) := {}

theorem passThrough_keeps (r : Request) (h : s.path.forward.length < 32) : Keeps s (passThrough r s) := by
  unfold passThrough
  split
  · exact .ite (forwardRequest_keeps r h) (interceptRead_keeps ..)
  · exact forwardRequest_keeps r h

theorem snoopBeat_keeps (page offset : Nat) (b : Beat) (s : State) : Keeps s (snoopBeat page offset b s) := by
  unfold snoopBeat
  split
  · exact .refl s
  next f _ =>
    split
    · cases f <;> exact {}
    · exact .refl s
    · exact raiseFault_keeps ..

theorem snoopBeats_keeps (page offset : Nat) (bs : List Beat) (s : State) :
    Keeps s (snoopBeats page offset bs s) := by
  induction bs generalizing offset s with
  | nil => exact .refl s
  | cons b bs ih => exact (snoopBeat_keeps ..).trans (ih ..)

theorem frameCompletion_keeps (camera : Fin 8) (slot : Nat) (s : State) : Keeps s (frameCompletion camera slot s) :=
  setCameras_keeps ..

theorem pictureTap_keeps (w : WindowEntry) (offset beats : Nat) (s : State) : Keeps s (pictureTap w offset beats s) := by
  unfold pictureTap
  dsimp only
  split
  · exact .ite (frameCompletion_keeps ..) (.refl s)
  · exact .refl s

theorem codedTap_keeps (w : WindowEntry) (r : Request) (offset : Nat) (beats : List Beat) (s : State) :
    Keeps s (codedTap w r offset beats s) := by
  unfold codedTap
  split
  · refine .ite (payloadTap_keeps ..) (.ite ?_ (.refl s))
    split
    · exact markerWrite_keeps ..
    · exact .refl s
  · exact .refl s

theorem windowWrite_keeps (w : WindowEntry) (r : Request) (beats : List Beat) (h : s.path.forward.length < 32) :
    Keeps s (windowWrite w r beats s) := by
  have forwarded := forwardRequest_keeps r h
  unfold windowWrite
  dsimp only
  split
  · exact forwarded
  · exact (setMixer_keeps ..).after forwarded
  · exact (pictureTap_keeps ..).after forwarded
  · exact (codedTap_keeps ..).after forwarded
  all_goals exact (raiseFault_keeps ..).after forwarded

theorem windowRead_keeps (w : WindowEntry) (r : Request) (n : Nat) (h : s.path.forward.length < 32) :
    Keeps s (windowRead w r n s) := by
  unfold windowRead
  dsimp only
  split
  · exact .ite (interceptRead_keeps ..) (forwardRequest_keeps r h)
  · exact forwardRequest_keeps r h

theorem classify_keeps (r : Request) (h : s.path.forward.length < 32) : Keeps s (classify r s) := by
  have forwarded := forwardRequest_keeps r h
  unfold classify controlPageRequest classifyWindow
  refine .ite ((raiseFault_keeps ..).after forwarded) ?_
  split
  · split
    · exact .ite (interceptRead_keeps ..) forwarded
    · exact (snoopBeats_keeps ..).after forwarded
  · split
    · exact forwarded
    · split
      · exact windowRead_keeps _ _ _ h
      · exact windowWrite_keeps _ _ _ h

theorem arrive_keeps (r : Request) (h : s.path.forward.length < 32) : Keeps s (arrive r s) := by
  have revealed (c : FatalCause) : Keeps s (passThrough r (raiseFatal c s)) :=
    (passThrough_keeps r (by rwa [raiseFatal_path])).after (raiseFatal_keeps ..)
  unfold arrive
  exact .ite (revealed _) (.ite (.ite (classify_keeps r h) (revealed _)) (passThrough_keeps r h))

theorem passTurn_keeps (q : Fin 8) (s : State) : Keeps s (passTurn q s) where
  bounds := fun ⟨forward, _⟩ => ⟨forward, Nat.zero_le _⟩

theorem setPool_keeps (pool : Vector (Option Issued) 32) (out : Option Transfer) (s : State) :
    Keeps s (s.setPath { s.path with pool := pool, memoryOut := out }) := {}

theorem cancelled_keeps (p : Purpose) (s : State) : Keeps s (cancelled p s) := by
  unfold cancelled
  split
  · exact postCancelled_keeps s
  · exact busWriteDone_keeps ..
  · exact labelLanded_keeps s
  · exact blockCancelled_keeps ..
  · exact finishCommand_keeps s
  all_goals exact .refl s

theorem grantInternal_keeps (q : Fin 8) (pick : BitVec 5) (s : State) : Keeps s (grantInternal q pick s).1 := by
  unfold grantInternal
  split
  · split
    · exact (presentNext_keeps ..).after ((setPool_keeps ..).after (passTurn_keeps ..))
    · exact (presentNext_keeps ..).after ((cancelled_keeps ..).after (passTurn_keeps ..))
  · exact .refl s

/-- The oldest forwarded request goes out, with a lockout count within its bound. -/
theorem grantedForwarded_keeps {r : Request} {rest : List Request} {n : Nat} (h : s.path.forward = r :: rest)
    (lockout : s.path.lockout ≤ 16 → n ≤ 16) : Keeps s (setLockout n (grantForwarded r rest s)) where
  bounds := fun ⟨forward, held⟩ => ⟨by
    rw [h] at forward
    exact (Nat.le_succ _).trans forward, lockout held⟩

theorem arbitrate_keeps (pick : BitVec 5) (n : Nat) (s : State) : Keeps s (arbitrate pick n s) := by
  induction n generalizing s with
  | zero => exact .refl s
  | succ n ih =>
    have again (q : Fin 8) : Keeps s (match grantInternal q pick s with
        | (s', true) => arbitrate pick n s'
        | (s', false) => s') := by
      have granted := grantInternal_keeps q pick s
      split <;> rename_i e <;> rw [e] at granted
      · exact granted.trans (ih _)
      · exact granted
    unfold arbitrate
    split
    next forward =>
      split
      · exact again _
      next below => exact grantedForwarded_keeps forward fun h => Nat.lt_of_le_of_ne h below
    · exact again _
    next forward => exact grantedForwarded_keeps forward fun _ => Nat.zero_le _
    · exact setLockout_keeps fun _ => Nat.zero_le _

theorem forwardedReturned_keeps (k : Fin 64) (r : Response) (s : State) : Keeps s (forwardedReturned k r s) := by
  unfold forwardedReturned
  dsimp only
  exact .ite (raiseFatal_keeps ..) (.ite {} ((raiseFault_keeps ..).after {}))

theorem stopBlock_keeps (b : Block) (s : State) : Keeps s (stopBlock b s) := by
  cases b with
  | path => exact { bounds := fun ⟨forward, _⟩ => ⟨forward, Nat.zero_le _⟩ }
  | command => exact (withdraw_keeps ..).after (setCommand_keeps ..)
  | report => exact (withdraw_keeps ..).after {}
  | timing => exact {}
  | mixer => exact (withdraw_keeps ..).after {}
  | label => exact (withdraw_keeps ..).after {}
  | governor => exact {}
  | line l => exact (withdraw_keeps ..).after ((settleLine_keeps ..).after (setLine_keeps ..))

/-! ## Upsets and responses -/

theorem strike_keeps (u : Upset) (s : State) : Keeps s (strike u s) := by
  cases u with
  | window i => exact {}
  | accumulator inNext b i => exact .ite {} {}
  | clip i =>
    refine setLabel_keeps (fun j => ?_) rfl id
    rw [Label.standing_set s.label _ i _ rfl]
    split
    next same =>
      rw [same, Label.standing, Option.map_map]
      rfl
    next => rfl

theorem strikes_keeps (us : List Upset) (s : State) : Keeps s (strikes us s) :=
  Keeps.foldl _ (fun _ _ => strike_keeps ..) ..

theorem busReturned_keeps (i : Issued) (r : Response) (s : State) : Keeps s (busReturned i r s) := by
  unfold busReturned
  split
  · exact busWriteDone_keeps ..
  · exact .refl s

theorem internalReturned_keeps (i : Issued) (r : Response) (s : State) : Keeps s (internalReturned i r s) := by
  unfold internalReturned
  split
  · exact recordReturned_keeps ..
  · exact completionReturned_keeps ..
  · exact tableReturned_keeps ..
  · exact settingsReturned_keeps ..
  · exact postReturned_keeps ..
  · exact busReturned_keeps ..
  · exact labelReturned_keeps ..
  · exact payloadReturned_keeps ..
  · exact fileReturned_keeps ..
  · exact descriptorReturned_keeps ..
  · exact blockReturned_keeps ..

end Sys2Proof.Machine
end

section
/-! SUPPORT. The invariants that every step keeps: the commands, one by one, and RESET. -/

set_option Elab.async false

namespace Sys2Proof.Machine

variable {s t u : State}

/-- Every next state of a command keeps the invariants. -/
def KeepsTo (s : State) (o : Host.Outcome State Fault Refusal) : Prop := ∀ t, o = .next t → Keeps s t

theorem KeepsTo.next (h : Keeps s t) : KeepsTo s (.next t) := by
  intro u e
  cases e
  exact h

theorem KeepsTo.refused (r : Refusal) : KeepsTo s (.refused r) := fun _ e => by cases e

theorem KeepsTo.ite {c : Prop} [Decidable c] {o o' : Host.Outcome State Fault Refusal} (h : KeepsTo s o)
    (k : KeepsTo s o') : KeepsTo s (if c then o else o') := by
  split
  · exact h
  · exact k

/-- A command that leaves the state as it was. -/
theorem KeepsTo.same (s : State) : KeepsTo s (.next s) := .next (.refl s)

/-- A command that goes on from a state already reached. -/
theorem KeepsTo.from {o : Host.Outcome State Fault Refusal} (k : KeepsTo t o) (h : Keeps s t) : KeepsTo s o :=
  fun u e => h.trans (k u e)

theorem internalReturn_keeps {wanted : Purpose → Bool} {taken : Issued → Response → State → State} (r : Response)
    (h : ∀ i s, Keeps s (taken i r s)) (s : State) : KeepsTo s (internalReturn wanted taken r s) := by
  intro t e
  rcases internalReturn_next e with rfl | ⟨k, _, _, _, rfl⟩ | ⟨k, i, _, _, _, rfl⟩
  · exact .refl _
  · exact {}
  · exact (h ..).after (acceptResponse_keeps ..)

/-! ## Requests, responses and counts -/

theorem fabricRequest_keeps (r : Request) (us : List Upset) (s : State) : KeepsTo s (exec (.fabricRequest r us) s) := by
  change KeepsTo s (if _ then if _ then _ else _ else _)
  split
  · split
    next room =>
      refine .next (Keeps.after (arrive_keeps r ?_) (strikes_keeps us s))
      rw [strikes_path]
      exact room
    · exact .same s
  · exact .refused _

theorem memoryPortAcceptance_keeps (pick : BitVec 5) (s : State) :
    KeepsTo s (exec (.memoryPortAcceptance pick) s) := by
  have cleared : Keeps s (s.setPath { s.path with memoryOut := none }) := {}
  exact .next ((arbitrate_keeps ..).after cleared)

theorem memoryResponse_keeps (r : Response) (s : State) : KeepsTo s (exec (.memoryResponse r) s) := by
  change KeepsTo s (execMemoryResponse r s)
  unfold execMemoryResponse
  refine .ite ?_ (.refused _)
  split
  · exact .next (forwardedReturned_keeps ..)
  · exact .ite (internalReturn_keeps r (fun _ _ => internalReturned_keeps ..) s) (.next (raiseFatal_keeps ..))

theorem interceptedReadResponse_keeps (tag : BitVec 6) (s : State) :
    KeepsTo s (exec (.interceptedReadResponse tag) s) := by
  change KeepsTo s (execInterceptedReadResponse tag s)
  unfold execInterceptedReadResponse
  split
  · exact .same s
  · exact .next {}

theorem producerCountWrite_keeps (s : State) : KeepsTo s (exec .producerCountWrite s) := by
  change KeepsTo s (execProducerCountWrite s)
  unfold execProducerCountWrite
  split
  · exact .same s
  · dsimp only
    have taken (rest : List Count16) : Keeps s { s with command := { s.command with inbox := rest } } := {}
    refine KeepsTo.from (.ite (.same _) (.next ?_)) (taken _)
    exact (fetchCommand_keeps _).after (takeProducer_keeps ..)

theorem reportConsumedCountWrite_keeps (s : State) : KeepsTo s (exec .reportConsumedCountWrite s) := by
  change KeepsTo s (execReportConsumedCountWrite s)
  unfold execReportConsumedCountWrite
  split
  · exact .same s
  · exact .ite (.next {}) (.next {})

theorem labelConsumedCountWrite_keeps (s : State) : KeepsTo s (exec .labelConsumedCountWrite s) := by
  change KeepsTo s (execLabelConsumedCountWrite s)
  unfold execLabelConsumedCountWrite
  have taken (rest : List Count16) (n : Count16) :
      Keeps s (s.setLabel { s.label with inbox := rest, consumed := n }) := setLabel_keeps (fun _ => rfl) rfl id
  split
  · exact .same s
  · exact .ite (.next (taken _ _)) (.next (taken _ _))

theorem gainFieldWrite_keeps (s : State) : KeepsTo s (exec .gainFieldWrite s) := by
  change KeepsTo s (execGainFieldWrite s)
  unfold execGainFieldWrite
  split
  · exact .same s
  · exact .ite (.next (setMixer_keeps ..)) (.next ((setMixer_keeps ..).after (setMixer_keeps ..)))

/-! ## Commands handed to their owners -/

theorem applyWindows_keeps (s : State) : KeepsTo s (exec .applyWindows s) := by
  change KeepsTo s (execApplyWindows s)
  unfold execApplyWindows
  split
  · exact .ite (.same s) (.next (startGather_keeps ..))
  · exact .same s

theorem applySettings_keeps (s : State) : KeepsTo s (exec .applySettings s) := by
  change KeepsTo s (execApplySettings s)
  unfold execApplySettings
  split
  · exact .ite (.same s) (.ite (.next (startGather_keeps ..)) (.next (startGather_keeps ..)))
  · exact .same s

theorem jamTimecode_keeps (s : State) : KeepsTo s (exec .jamTimecode s) := by
  change KeepsTo s (execJamTimecode s)
  unfold execJamTimecode
  split
  · refine .ite (.same s) ?_
    dsimp only
    split
    · exact .next (complete_keeps ..)
    next passed =>
      have staged (x : Timecode) (valid : x.valid s.timing.rate = true) :
          Keeps s { s with timing := { s.timing with jam := some x } } :=
        { timing := fun ⟨timecode, _⟩ => ⟨timecode, fun j e => by
            cases e
            exact valid⟩ }
      exact .next ((staged _ (jamChecks_pass_iff.mp passed)).completed ..)
  · exact .same s

theorem clipMark_keeps (s : State) : KeepsTo s (exec .clipMark s) := by
  change KeepsTo s (execClipMark s)
  unfold execClipMark
  split
  · refine .ite (.same s) ?_
    split
    · exact .next (complete_keeps ..)
    · exact .next (complete_keeps ..)
    · exact .next ((fillSlot_keeps ..).completed ..)
  · exact .same s

theorem streamFlush_keeps (s : State) : KeepsTo s (exec .streamFlush s) := by
  change KeepsTo s (execStreamFlush s)
  unfold execStreamFlush
  split
  · refine .ite (.same s) (.ite (.next ?_) (.next (complete_keeps ..)))
    refine (complete_keeps ..).after ((offer_keeps ..).after (setStream_keeps fun h => ?_))
    exact h.flush.of_core rfl rfl rfl rfl h.flush.notices_le
  · exact .same s

theorem lineStart_keeps (s : State) : KeepsTo s (exec .lineStart s) := by
  change KeepsTo s (execLineStart s)
  unfold execLineStart
  have done (c : Completion) : KeepsTo s (.next (complete c 0 s)) := .next (complete_keeps ..)
  split
  · exact .ite (.same s) (.ite (done _) (.ite (done _) (.ite (done _) (.next ((startLine_keeps ..).completed ..)))))
  · exact .same s

theorem lineHalt_keeps (s : State) : KeepsTo s (exec .lineHalt s) := by
  change KeepsTo s (execLineHalt s)
  unfold execLineHalt
  have done (c : Completion) : KeepsTo s (.next (complete c 0 s)) := .next (complete_keeps ..)
  split
  · exact .ite (.same s) (.ite (done _) (.ite (done _) (.next ((haltLine_keeps ..).completed ..))))
  · exact .same s

theorem lineClear_keeps (s : State) : KeepsTo s (exec .lineClear s) := by
  change KeepsTo s (execLineClear s)
  unfold execLineClear
  split
  · refine .ite (.same s) (.next ?_)
    exact (complete_keeps ..).after ((functionChanged_keeps ..).after (setLine_keeps ..))
  · exact .same s

theorem lineResume_keeps (s : State) : KeepsTo s (exec .lineResume s) := by
  change KeepsTo s (execLineResume s)
  unfold execLineResume
  split
  · refine .ite (.same s) ?_
    split
    · exact .next (complete_keeps ..)
    · exact .next ((complete_keeps ..).after ((fetchDescriptor_keeps ..).after (setList_keeps ..)))
    · exact .next ((complete_keeps ..).after (setList_keeps ..))
  · exact .same s

theorem sendList_keeps (s : State) : KeepsTo s (exec .sendList s) := by
  change KeepsTo s (execSendList s)
  unfold execSendList
  have done (c : Completion) (n : Nat) : KeepsTo s (.next (complete c n s)) := .next (complete_keeps ..)
  split
  · refine .ite (.same s) (.ite (done _ _) (.ite (done _ _) (.next ?_)))
    exact (complete_keeps ..).after ((fetchDescriptor_keeps ..).after (setList_keeps ..))
  · exact .same s

/-- The acceptance of MEASURE_START leaves mode and cause (R205). -/
theorem startMeasure_keeps (length : Nat) (s : State) : Keeps s (s.setFault (s.fault.start length)) := by
  have same : (s.fault.start length).mode = s.fault.mode ∧ (s.fault.start length).cause = s.fault.cause ∧
      (s.fault.start length).further = s.fault.further := by
    unfold FaultUnit.start
    split <;> exact ⟨rfl, rfl, rfl⟩
  obtain ⟨mode, cause, further⟩ := same
  refine { fault := fun h => ?_, fatal := fun h => ⟨mode.trans h, cause⟩ }
  change (_ ↔ _) ∧ _
  rw [State.setFault_fault, mode, cause, further]
  exact h

theorem measureStart_keeps (s : State) : KeepsTo s (exec .measureStart s) := by
  change KeepsTo s (execMeasureStart s)
  unfold execMeasureStart
  have done (c : Completion) (n : Nat) : KeepsTo s (.next (complete c n s)) := .next (complete_keeps ..)
  split
  · exact .ite (.ite (done _ _) (.ite (done _ _) (.next ((startMeasure_keeps ..).completed ..)))) (.same s)
  · exact .same s

theorem measureStop_keeps (s : State) : KeepsTo s (exec .measureStop s) := by
  change KeepsTo s (execMeasureStop s)
  unfold execMeasureStop
  have stopped : Keeps s (s.setFault s.fault.stop) := {}
  split
  · exact .ite (.ite (.next (complete_keeps ..)) (.next (stopped.completed ..))) (.same s)
  · exact .same s

/-! ## Posts and boundaries -/

theorem reportPost_keeps (s : State) : KeepsTo s (exec .reportPost s) := by
  change KeepsTo s (execReportPost s)
  unfold execReportPost
  refine .ite ?_ (.same s)
  split
  next head =>
    refine .next ((presentPost_keeps ..).after { report := fun h => ?_ })
    exact h.tail head
  · exact .ite (.same s) (.next (presentPost_keeps ..))
  · exact .same s

theorem labelPost_keeps (us : List Upset) (s : State) : KeepsTo s (exec (.labelPost us) s) := by
  have struck := strikes_keeps us s
  change KeepsTo s (if _ then _ else _)
  refine .ite (.next ((presentLabel_keeps _).after (Keeps.after ?_ struck))) (.next struck)
  exact settle_induction _ .refl ringDropBad_keeps .trans ..

theorem reference_keeps (r : Ref) (s : State) :
    Keeps s (acceptPulse r s) ∧ Keeps s (rejectPulse r s) ∧ Keeps s (freeRunExpiry r s) ∧ Keeps s (lossExpiry r s) := by
  refine ⟨?_, setReference_keeps .., ?_, ?_⟩
  · unfold acceptPulse
    dsimp only
    have made := takeBoundary_keeps r .pulse
      { s.timing.reference r with state := .locked, elapsed := 0, freeRun := 0 } none s
    split
    · exact (offer_keeps ..).after made
    · exact (offer_keeps ..).after made
    · exact made
    · exact made
  · unfold freeRunExpiry
    dsimp only
    split
    · exact .ite ((offer_keeps ..).after (takeBoundary_keeps r _ _ none s)) (takeBoundary_keeps r _ _ none s)
    · exact takeBoundary_keeps r _ _ none s
    · exact takeBoundary_keeps r _ _ none s
    · exact .refl s
  · exact (offer_keeps ..).after (takeBoundary_keeps r _ _ none s)

theorem markEdge_keeps (input : Fin 6) (high : Bool) (clocks : Nat) (s : State) :
    KeepsTo s (exec (.markEdge input high clocks) s) := by
  change KeepsTo s (execMarkEdge input high clocks s)
  unfold execMarkEdge
  have filtered : Keeps s { s with timing := { s.timing with filtered := s.timing.filtered.set input high } } := {}
  exact .ite (.same s) (.ite (.same s) (.ite (.next ((fillSlot_keeps ..).after filtered)) (.next filtered)))

theorem mixerAudioBoundary_keeps (us : List Upset) (s : State) : KeepsTo s (exec (.mixerAudioBoundary us) s) := by
  change KeepsTo s (execMixerAudioBoundary us s)
  unfold execMixerAudioBoundary
  dsimp only
  refine KeepsTo.from ?_ (strikes_keeps us s)
  split
  · exact .same _
  · exact .from (.ite (.same _) (.next (mixerBoundary_keeps _))) (setMixer_keeps ..)

theorem setBoundaries_keeps (bs : List VideoBoundary) (s : State) :
    Keeps s (s.setLabel { s.label with boundaries := bs }) :=
  setLabel_keeps (fun _ => rfl) rfl id

theorem labelVideoBoundary_keeps (us : List Upset) (s : State) : KeepsTo s (exec (.labelVideoBoundary us) s) := by
  change KeepsTo s (execLabelVideoBoundary us s)
  unfold execLabelVideoBoundary
  dsimp only
  refine KeepsTo.from ?_ (strikes_keeps us s)
  split
  · exact .same _
  · exact .from (.ite (.same _) (.next (labelBoundary_keeps ..))) (setBoundaries_keeps ..)

theorem governorVideoBoundary_keeps (s : State) : KeepsTo s (exec .governorVideoBoundary s) := by
  change KeepsTo s (execGovernorVideoBoundary s)
  unfold execGovernorVideoBoundary
  have taken (rest : List VideoBoundary) :
      Keeps s { s with governor := { s.governor with boundaries := rest } } := {}
  split
  · exact .same s
  · exact .from (.ite (.same _) (.next (streamsAtBoundary_keeps _))) (taken _)

theorem lineAudioBoundary_keeps (l : LineId) (s : State) : KeepsTo s (exec (.lineAudioBoundary l) s) := by
  change KeepsTo s (execLineAudioBoundary l s)
  unfold execLineAudioBoundary
  split
  · exact .same s
  · exact .from (.ite (.same _) (.next (lineBoundary_keeps ..))) (setLine_keeps ..)

theorem measurementTimer_keeps (s : State) : KeepsTo s (exec .measurementTimer s) := by
  change KeepsTo s (execMeasurementTimer s)
  unfold execMeasurementTimer
  have taken (rest : List AudioBoundary) : Keeps s (s.setFault { s.fault with boundaries := rest }) := {}
  split
  · exact .same s
  · exact .from (.ite (.next (timerBoundary_keeps ..)) (.same _)) (taken _)

/-! ## The lines -/

theorem frameEnd_keeps (l : LineId) (s : State) : KeepsTo s (exec (.frameEnd l) s) := by
  change KeepsTo s (execFrameEnd l s)
  unfold execFrameEnd
  dsimp only
  split
  · refine .ite (.next ?_) (.same s)
    exact (settleLine_keeps ..).after ((afterFrame_keeps ..).after (endTransmission_keeps ..))
  · exact .same s

theorem los_keeps (l : LineId) (s : State) : KeepsTo s (exec (.los l) s) := by
  change KeepsTo s (execLos l s)
  unfold execLos
  exact .ite (.same s) (.ite (.next (setReceiver_keeps ..)) (.next (declareLos_keeps ..)))

theorem codeViolation_keeps (l : LineId) (s : State) : KeepsTo s (exec (.codeViolation l) s) := by
  change KeepsTo s (execCodeViolation l s)
  unfold execCodeViolation
  exact .ite (.same s) (.next ((measureOffer_keeps ..).after (setLine_keeps ..)))

theorem candidateFrame_keeps (l : LineId) (us : List Upset) (s : State) :
    KeepsTo s (exec (.candidateFrame l us) s) := by
  change KeepsTo s (execCandidateFrame l us s)
  unfold execCandidateFrame
  exact .from (.ite (.next (judgeCandidate_keeps ..)) (.same _)) (strikes_keeps us s)

theorem lockedFrame_keeps (l : LineId) (us : List Upset) (s : State) : KeepsTo s (exec (.lockedFrame l us) s) := by
  change KeepsTo s (execLockedFrame l us s)
  unfold execLockedFrame
  exact .from (.ite (.next (judgeLocked_keeps ..)) (.same _)) (strikes_keeps us s)

theorem symbolReceived_keeps (l : LineId) (level : Symbol) (s : State) :
    KeepsTo s (exec (.symbolReceived l level) s) := by
  change KeepsTo s (execSymbolReceived l level s)
  unfold execSymbolReceived
  refine .ite (.same s) ?_
  split
  · exact .next (setLine_keeps ..)
  · exact .same s

/-! ## Every command -/

/-- Every command but RESET keeps the invariants. -/
theorem exec_keeps (i : Instr) (h : ∀ cpb, i ≠ .reset cpb) (s : State) : KeepsTo s (exec i s) := by
  cases i with
  | fabricRequest r us => exact fabricRequest_keeps r us s
  | memoryPortAcceptance pick => exact memoryPortAcceptance_keeps pick s
  | memoryResponse r => exact memoryResponse_keeps r s
  | reset cpb => exact absurd rfl (h cpb)
  | producerCountWrite => exact producerCountWrite_keeps s
  | reportConsumedCountWrite => exact reportConsumedCountWrite_keeps s
  | labelConsumedCountWrite => exact labelConsumedCountWrite_keeps s
  | gainFieldWrite => exact gainFieldWrite_keeps s
  | passOnlyEntry b => exact .ite (.same s) (.next (stopBlock_keeps ..))
  | recordReadReturn r => exact internalReturn_keeps r (fun _ _ => recordReturned_keeps ..) s
  | completionWriteReturn r => exact internalReturn_keeps r (fun _ _ => completionReturned_keeps ..) s
  | applyWindows => exact applyWindows_keeps s
  | windowTableReadReturn r => exact internalReturn_keeps r (fun _ _ => tableReturned_keeps ..) s
  | applySettings => exact applySettings_keeps s
  | settingsReadReturn r => exact internalReturn_keeps r (fun _ _ => settingsReturned_keeps ..) s
  | jamTimecode => exact jamTimecode_keeps s
  | clipMark => exact clipMark_keeps s
  | streamFlush => exact streamFlush_keeps s
  | lineStart => exact lineStart_keeps s
  | lineHalt => exact lineHalt_keeps s
  | lineClear => exact lineClear_keeps s
  | lineResume => exact lineResume_keeps s
  | sendList => exact sendList_keeps s
  | measureStart => exact measureStart_keeps s
  | measureStop => exact measureStop_keeps s
  | reportPost => exact reportPost_keeps s
  | reportPostWriteReturn r => exact internalReturn_keeps r (fun _ _ => postReturned_keeps ..) s
  | referencePulse ref =>
    have ⟨accepted, rejected, _, _⟩ := reference_keeps ref s
    exact .ite (.same s) (.ite (.next accepted) (.next rejected))
  | freeRunTimer ref =>
    have ⟨_, _, expired, _⟩ := reference_keeps ref s
    exact .ite (.same s) (.ite (.next expired) (.same s))
  | lossTimer ref =>
    have ⟨_, _, _, lost⟩ := reference_keeps ref s
    exact .ite (.same s) (.ite (.next lost) (.same s))
  | markEdge input high clocks => exact markEdge_keeps input high clocks s
  | mixerAudioBoundary us => exact mixerAudioBoundary_keeps us s
  | busOutWriteReturn r => exact internalReturn_keeps r (fun i s => busReturned_keeps i r s) s
  | labelVideoBoundary us => exact labelVideoBoundary_keeps us s
  | labelPost us => exact labelPost_keeps us s
  | labelWriteReturn r => exact internalReturn_keeps r (fun _ _ => labelReturned_keeps ..) s
  | governorVideoBoundary => exact governorVideoBoundary_keeps s
  | lineAudioBoundary l => exact lineAudioBoundary_keeps l s
  | frameEnd l => exact frameEnd_keeps l s
  | payloadReadReturn r => exact internalReturn_keeps r (fun _ _ => payloadReturned_keeps ..) s
  | fileReadReturn r => exact internalReturn_keeps r (fun _ _ => fileReturned_keeps ..) s
  | descriptorFetchReturn r => exact internalReturn_keeps r (fun _ _ => descriptorReturned_keeps ..) s
  | los l => exact los_keeps l s
  | codeViolation l => exact codeViolation_keeps l s
  | candidateFrame l us => exact candidateFrame_keeps l us s
  | lockedFrame l us => exact lockedFrame_keeps l us s
  | measurementTimer => exact measurementTimer_keeps s
  | measWriteReturn r => exact internalReturn_keeps r (fun _ _ => blockReturned_keeps ..) s
  | interceptedReadResponse tag => exact interceptedReadResponse_keeps tag s
  | symbolReceived l level => exact symbolReceived_keeps l level s
  | symbolSent l => exact .next (setLine_keeps ..)

theorem coreClock_keeps (s : State) : Keeps s (coreClock s) := .ite (.refl s) {}

/-- Every step keeps the invariants but one that runs RESET. -/
theorem step_keeps (h : ∀ cpb rest, s.pending ≠ .reset cpb :: rest) : KeepsTo s (step s) := by
  unfold step
  split
  · exact .next (coreClock_keeps s)
  next c rest pending =>
    have taken : Keeps s (s.withPending rest) := {}
    refine .from (exec_keeps c (fun cpb e => h cpb rest ?_) _) taken
    rw [pending, e]

/-! ## RESET -/

/-- What holds after a step that is not RESET, and in every state RESET leaves, holds after every step. -/
theorem step_invariant {P : State → Prop} (kept : ∀ t, Keeps s t → P t)
    (reset : ∀ cpb rest, P { State.reset with path := { Path.reset with cpb := cpb }, pending := rest })
    (stepped : step s = .next t) : P t := by
  by_cases h : ∃ cpb rest, s.pending = .reset cpb :: rest
  · obtain ⟨cpb, rest, pending⟩ := h
    have run : step s = .next { State.reset with path := { Path.reset with cpb := cpb }, pending := rest } := by
      simp only [step, pending]
      rfl
    rw [run] at stepped
    cases stepped
    exact reset cpb rest
  · exact kept t (step_keeps (fun cpb rest pending => h ⟨cpb, rest, pending⟩) t stepped)

theorem Governor.reset_sound : Governor.reset.Sound := by
  intro n
  have empty : Governor.reset.streams[n] = Stream.reset := by simp [Governor.reset]
  rw [empty]
  exact ⟨rfl, Nat.le_refl 0, Nat.zero_le _, Nat.zero_le _, fun c held => by cases held⟩

theorem Report.reset_sound : Report.reset.Sound := ⟨List.nodup_nil, List.Pairwise.nil⟩

theorem Label.reset_sound : Label.reset.Sound := by
  have free (i : Fin 32) : Label.reset.clips[i] = none := by simp [Label.reset]
  refine ⟨List.nodup_nil, fun i => ⟨fun mem => (List.not_mem_nil mem).elim, ?_⟩, ?_, Nat.zero_le _⟩
  · rintro ⟨c, held, _⟩
    rw [free] at held
    cases held
  · intro i j c d held
    rw [free] at held
    cases held

theorem Timing.reset_sound : Timing.reset.Sound := ⟨rfl, fun j staged => by cases staged⟩

/-- A table of disabled entries passes, wherever the control page is. -/
theorem firstBadEntry_disabled (controlPage n : Nat) (lower : List WindowEntry) :
    firstBadEntry controlPage lower (List.replicate n WindowEntry.disabled) = none := by
  induction n generalizing lower with
  | zero => rfl
  | succ n ih =>
    have passes : WindowEntry.disabled.fails lower controlPage = false := rfl
    rw [List.replicate_succ, firstBadEntry, passes]
    exact ih _

theorem FaultUnit.reset_sound : FaultUnit.reset.Sound := ⟨by simp [FaultUnit.reset], Nat.zero_le _⟩

theorem Path.reset_bounded : Path.reset.Bounded := ⟨Nat.zero_le _, Nat.zero_le _⟩

theorem State.pathSound_iff (s : State) : s.PathSound ↔ s.fault.Sound ∧ s.path.Bounded := by
  rw [State.PathSound, FaultUnit.Sound, Path.Bounded, and_assoc]

end Sys2Proof.Machine

open Sys2Proof Sys2Proof.Machine

/-- Settles O52: every command but RESET keeps every stream sound, and after RESET the streams are empty. -/
theorem streamFillIsTheSumOfUnsentBytes : Obligations.StreamFillIsTheSumOfUnsentBytes := by
  intro s t sound stepped
  exact step_invariant (fun t kept => kept.governor sound) (fun _ _ => Governor.reset_sound) stepped

/-- Settles O53: a record joins that of its pair or enters behind the FAULT records. -/
theorem reportQueueHoldsEachPairOnce : Obligations.ReportQueueHoldsEachPairOnce := by
  intro s t sound stepped
  exact step_invariant (fun t kept => kept.report sound) (fun _ _ => Report.reset_sound) stepped

/-- Settles O54: a record stands OPEN or CLOSED for its camera, and only a mark or the freeing changes that. -/
theorem closeOrderListHoldsTheClosedRecords : Obligations.CloseOrderListHoldsTheClosedRecords := by
  intro s t sound stepped
  exact step_invariant (fun t kept => kept.label sound) (fun _ _ => Label.reset_sound) stepped

/-- Settles O55: the advance carries by cases, and both it and the adjustment leave a valid timecode. -/
theorem timecodeStaysValid : Obligations.TimecodeStaysValid := by
  refine ⟨?kept, ?rules⟩
  case kept =>
    intro s t sound stepped
    exact step_invariant (fun t kept => kept.timing sound) (fun _ _ => Timing.reset_sound) stepped
  case rules =>
    intro rate base skipped x row frame
    obtain ⟨rfl, rfl⟩ : base = rate.frameBase ∧ skipped = rate.skipped := by
      simp only [List.mem_cons, Prod.mk.injEq, List.not_mem_nil, or_false] at row
      rcases row with h | h | h | h | h | h <;> obtain ⟨rfl, rfl, rfl⟩ := h <;> exact ⟨rfl, rfl⟩
    refine ⟨Timecode.valid_iff x rate, fun valid => ⟨Timecode.valid_advance valid, ?_⟩, Timecode.adjust_eq x rate⟩
    exact ⟨Timecode.advance_of_frame, Timecode.advance_of_second, Timecode.advance_of_minute,
      Timecode.advance_of_hour, Timecode.advance_of_day⟩

/-- Settles O56: only a table that passes is applied, and the straps are read at RESET only. -/
theorem appliedTableStaysValid : Obligations.AppliedTableStaysValid := by
  intro s t sound stepped
  refine step_invariant (fun t kept => kept.table sound) (fun cpb rest => ?_) stepped
  exact firstBadEntry_disabled _ 16 []

/-- Settles O57: the first cause makes the mode PASS-ONLY, and nothing but RESET takes it back. -/
theorem passOnlyLastsUntilReset : Obligations.PassOnlyLastsUntilReset := by
  intro s t stepped
  refine ⟨fun sound => ?_, fun passOnly noReset => (step_keeps noReset t stepped).fatal passOnly⟩
  simp only [State.pathSound_iff] at sound ⊢
  obtain ⟨fault, path⟩ := sound
  exact step_invariant (P := fun t => t.fault.Sound ∧ t.path.Bounded)
    (fun t kept => ⟨kept.fault fault, kept.bounds path⟩)
    (fun _ _ => ⟨FaultUnit.reset_sound, Path.reset_bounded⟩) stepped

/-- Settles O60: in each block by its reset state. -/
theorem resetIsSound : Obligations.ResetIsSound :=
  ⟨Governor.reset_sound, Report.reset_sound, Label.reset_sound, Timing.reset_sound,
    firstBadEntry_disabled _ 16 [], (State.pathSound_iff _).mpr ⟨FaultUnit.reset_sound, Path.reset_bounded⟩⟩

/-- Settles O1: by the two cases of the queue. -/
theorem stepRunsTheFrontCommand : Obligations.StepRunsTheFrontCommand := by
  intro s
  refine ⟨?front, ?idle⟩
  case front => intro c rest pending; simp only [step, pending]
  case idle => intro pending; simp only [step, pending]

end

section
/-! SUPPORT. A part in which every block has stopped: what each command but RESET leaves as it was (R201). -/

set_option Elab.async false

namespace Sys2Proof.Machine

variable {s t u : State}

/-! ## What stands still -/

/-- A line less its coder, its loops and what is handed to it. -/
def Line.held (x : Line) : Line :=
  { x with coder := Coder.reset, retransmit := [], looped := [], level := .space, boundaries := [] }

/-- The part less what a stopped part still changes: the path unit's traffic, what is handed to the blocks, the coders,
the count of further causes, and the values in which upsets set parity marks. -/
def State.held (s : State) : State :=
  { s with
    path := { Path.reset with windows := s.path.windows, stopped := s.path.stopped }
    command := { s.command with inbox := [] }
    report := { s.report with inbox := [] }
    mixer := { s.mixer with current := MixFrame.empty, next := MixFrame.empty, gains := [], boundaries := [] }
    label := { s.label with clips := Vector.replicate 32 none, inbox := [], boundaries := [] }
    governor := { s.governor with boundaries := [] }
    lines := mapTable Line.held s.lines
    fault := { s.fault with further := 0, boundaries := [] }
    pending := [] }

/-- A clip record without its parity mark. -/
def Clip.unmarked (c : Clip) : Clip := { c with parityBad := false }

/-- From s to t only what a stopped part may change has changed, and nothing has gone out. -/
structure Still (s t : State) : Prop where
  held : t.held = s.held := by rfl
  current : FrameFrozen s.mixer.current t.mixer.current := by exact ⟨rfl, rfl, rfl, fun _ _ => rfl⟩
  next : FrameFrozen s.mixer.next t.mixer.next := by exact ⟨rfl, rfl, rfl, fun _ _ => rfl⟩
  clips : ∀ i : Fin 32, (t.label.clips[i]).map Clip.unmarked = (s.label.clips[i]).map Clip.unmarked := by
    exact fun _ => rfl
  memoryOut : t.path.memoryOut = s.path.memoryOut := by rfl

theorem FrameFrozen.trans {f g h : MixFrame} (x : FrameFrozen f g) (y : FrameFrozen g h) : FrameFrozen f h := by
  obtain ⟨bad, arrivals, routes, values⟩ := x
  obtain ⟨bad', arrivals', routes', values'⟩ := y
  exact ⟨bad'.trans bad, arrivals'.trans arrivals, routes'.trans routes, fun b i => (values' b i).trans (values b i)⟩

theorem Still.refl (s : State) : Still s s := {}

theorem Still.trans (h : Still s t) (k : Still t u) : Still s u where
  held := k.held.trans h.held
  current := h.current.trans k.current
  next := h.next.trans k.next
  clips i := (k.clips i).trans (h.clips i)
  memoryOut := k.memoryOut.trans h.memoryOut

theorem Still.after (k : Still t u) (h : Still s t) : Still s u := h.trans k

theorem State.held_line (h : t.held = s.held) (l : LineId) : (t.line l).held = (s.line l).held := by
  have same : (mapTable Line.held t.lines)[l] = (mapTable Line.held s.lines)[l] :=
    congrArg (fun x : State => x.lines[l]) h
  rwa [mapTable_get, mapTable_get] at same

theorem State.AllStopped.held (h : s.AllStopped) (k : t.held = s.held) : t.AllStopped := by
  obtain ⟨mode, path, command, report, timing, mixer, label, governor, lines⟩ := h
  have same {α : Type} (f : State → α) : f t.held = f s.held := congrArg f k
  refine ⟨(same (·.fault.mode)).trans mode, (same (·.path.stopped)).trans path,
    (same (·.command.stopped)).trans command, (same (·.report.stopped)).trans report,
    (same (·.timing.stopped)).trans timing, (same (·.mixer.stopped)).trans mixer,
    (same (·.label.stopped)).trans label, (same (·.governor.stopped)).trans governor, fun l => ?_⟩
  exact (congrArg Line.stopped (State.held_line k l)).trans (lines l)

theorem Still.frozen (k : Still s t) (mode : s.fault.mode = .passOnly) : Frozen s t := by
  have same {α : Type} (f : State → α) : f t.held = f s.held := congrArg f k.held
  have line {α : Type} (f : Line → α) (l : LineId) : f (t.line l).held = f (s.line l).held :=
    congrArg f (State.held_line k.held l)
  refine ⟨(same (·.fault.mode)).trans mode, same (·.fault.cause), same (·.fault.classes), same (·.fault.totals),
    same (·.fault.buffer), same (·.fault.number), same (·.fault.state), same (·.fault.interval),
    same (·.fault.stagedInterval), same (·.fault.frames), same (·.fault.writes), same (·.fault.los),
    same (·.path.windows), same (·.command.state), same (·.command.producer), same (·.command.consumer),
    same (·.command.executing), same (·.command.handed), same (·.command.gather), same (·.report.queue),
    same (·.report.post), same (·.report.written), same (·.report.consumed), same (·.report.slot), same (·.timing),
    same (·.mixer.sources), same (·.mixer.frame), same (·.mixer.meters), same (·.mixer.targets),
    same (·.mixer.applied), same (·.mixer.staged), same (·.mixer.held), same (·.mixer.busQueue), k.current, k.next,
    k.clips, same (·.label.order), same (·.label.uplink), same (·.label.cameras), same (·.label.nextId),
    same (·.label.stray), same (·.label.applied), same (·.label.staged), same (·.label.periodTimecode),
    same (·.label.periodVideo), same (·.label.inFlight), same (·.label.written), same (·.label.consumed),
    same (·.label.slot), same (·.governor.streams), fun l => ?_⟩
  exact ⟨line (·.applied) l, line (·.staged) l, line (·.function) l, line (·.sequence) l, line (·.list) l,
    line (·.next) l, line (·.tx) l, line (·.jobs) l, line (·.startPending) l, line (·.holdBefore) l,
    line (·.audioDue) l, line (·.newPeriod) l, line (·.labelSent) l, line (·.periodUnlocked) l, line (·.receiver) l⟩

/-! ## The operations of a stopped part -/

theorem setLine_still {l : LineId} {x : Line} (h : x.held = (s.line l).held) : Still s (s.setLine l x) where
  held := by
    have lines : mapTable Line.held (s.lines.set l x) = mapTable Line.held s.lines := by
      refine Vector.ext fun i hi => ?_
      have at_ := mapTable_get Line.held (s.lines.set l x) ⟨i, hi⟩
      have at' := mapTable_get Line.held s.lines ⟨i, hi⟩
      refine at_.trans (Eq.trans ?_ at'.symm)
      rw [getElem_set_fin]
      split
      next same => rw [h, same]; rfl
      next => rfl
    unfold State.held
    rw [State.setLine_lines, lines]
    rfl

theorem withdraw_still (q : Fin 8) (s : State) : Still s (withdraw q s) := by
  rw [withdraw_eq]
  exact {}

theorem raiseFatal_still (c : FatalCause) (h : s.isNormal = false) : Still s (raiseFatal c s) := by
  rw [raiseFatal_of_passOnly c h]
  exact {}

theorem spoil_frozen (f : MixFrame) (b : Fin 16) (i : Fin 48) :
    FrameFrozen f { f with rows := f.rows.set b (f.rows[b].set i { f.rows[b][i] with parityBad := true }) } := by
  refine ⟨rfl, rfl, rfl, fun b' i' => ?_⟩
  dsimp only
  rw [getElem_set_fin]
  split
  next row =>
    rw [getElem_set_fin, row]
    split
    next place => rw [place]
    next => rfl
  next => rfl

theorem strike_still (u : Upset) (s : State) : Still s (strike u s) := by
  cases u with
  | window i => exact {}
  | accumulator inNext b i =>
    cases inNext with
    | true => exact { next := spoil_frozen .. }
    | false => exact { current := spoil_frozen .. }
  | clip i =>
    refine { clips := fun j => ?_ }
    change ((s.label.clips.set i ((s.label.clips[i]).map fun c => { c with parityBad := true }))[j]).map _ = _
    rw [getElem_set_fin]
    split
    next same =>
      rw [same, Option.map_map]
      rfl
    next => rfl

theorem strikes_still (us : List Upset) (s : State) : Still s (strikes us s) := by
  unfold strikes
  induction us generalizing s with
  | nil => exact .refl s
  | cons u us ih => exact (strike_still u s).trans (ih _)

theorem forwardRequest_still (r : Request) (s : State) : Still s (forwardRequest r s) := {}

theorem passThrough_still (r : Request) (s : State) : Still s (passThrough r s) := by
  unfold passThrough
  have intercepted (beats : List Word) : Still s (interceptRead r beats s) := {}
  split
  · split
    · exact forwardRequest_still r s
    · exact intercepted _
  · exact forwardRequest_still r s

theorem freeTag_still (k : Fin 32) (s : State) : Still s (freeTag k s) := {}

theorem settleOutput_held (x : Line) : x.settleOutput.held = x.held := rfl

/-- A stopped line has the hold signal, or no signal with rate class OFF (R175, R181). -/
theorem Line.nextBit_of_stopped {x : Line} (h : x.stopped = true) :
    x.nextBit = none ∨ x.nextBit = some (true, x) := by
  have output : x.output = .noSignal ∨ x.output = .hold := by
    unfold Line.output
    rw [h]
    split
    · exact .inl rfl
    · exact .inr rfl
  unfold Line.nextBit
  rcases output with o | o <;> rw [o]
  · exact .inl rfl
  · exact .inr rfl

theorem sendSymbol_held {x : Line} (h : x.stopped = true) : x.sendSymbol.held = x.held := by
  unfold Line.sendSymbol
  rcases x.nextBit_of_stopped h with none | hold
  · rw [none]
  · rw [hold]
    dsimp only
    split <;> rfl

/-! ## The commands of a stopped part -/

theorem State.AllStopped.isNormal (h : s.AllStopped) : s.isNormal = false := by
  obtain ⟨mode, _⟩ := h
  rw [isNormal_false_iff, mode]

/-- Every response is discarded (R18). -/
theorem State.AllStopped.discards (h : s.AllStopped) (p : Purpose) : s.discards p = true := by
  obtain ⟨_, path, _⟩ := h
  rw [State.discards, path, Bool.true_or]

/-- Every next state of a command leaves still what a stopped part does not change. -/
def StillTo (s : State) (o : Host.Outcome State Fault Refusal) : Prop := ∀ t, o = .next t → Still s t

theorem StillTo.next (h : Still s t) : StillTo s (.next t) := by
  intro u e
  cases e
  exact h

theorem StillTo.same (s : State) : StillTo s (.next s) := .next (.refl s)

theorem StillTo.pos {c : Prop} [Decidable c] {o o' : Host.Outcome State Fault Refusal} (h : c) (k : StillTo s o) :
    StillTo s (if c then o else o') := by rwa [if_pos h]

theorem StillTo.neg {c : Prop} [Decidable c] {o o' : Host.Outcome State Fault Refusal} (h : ¬c) (k : StillTo s o') :
    StillTo s (if c then o else o') := by rwa [if_neg h]

theorem StillTo.from {o : Host.Outcome State Fault Refusal} (k : StillTo t o) (h : Still s t) : StillTo s o :=
  fun u e => h.trans (k u e)

theorem internalReturn_still {wanted : Purpose → Bool} {taken : Issued → Response → State → State} (r : Response)
    (h : s.AllStopped) : StillTo s (internalReturn wanted taken r s) := by
  intro t e
  rcases internalReturn_next e with rfl | ⟨k, _, _, _, rfl⟩ | ⟨_, i, kept, _⟩
  · exact .refl _
  · exact freeTag_still k s
  · rw [h.discards] at kept
    cases kept

/-- A request that arrives is forwarded or answered, and may reveal one more cause. -/
theorem arrive_still (r : Request) (h : s.AllStopped) : Still s (arrive r s) := by
  unfold arrive
  split
  · exact (raiseFatal_still _ h.isNormal).trans (passThrough_still ..)
  · rw [h.isNormal]
    exact passThrough_still ..

theorem fabricRequest_still (r : Request) (us : List Upset) (h : s.AllStopped) :
    StillTo s (exec (.fabricRequest r us) s) := by
  have struck := strikes_still us s
  change StillTo s (if _ then if _ then _ else _ else _)
  split
  · split
    · exact .next (struck.trans (arrive_still r (h.held struck.held)))
    · exact .same s
  · exact fun _ e => by cases e

/-- A response with a fabric tag is counted off, or one more cause. -/
theorem forwardedReturned_still (k : Fin 64) (r : Response) (h : s.AllStopped) :
    Still s (forwardedReturned k r s) := by
  have returned (tags : Vector TagRecord 64) (out : Option Response) :
      Still s (s.setPath { s.path with tags := tags, fabricOut := out }) := {}
  unfold forwardedReturned
  dsimp only
  split
  · exact raiseFatal_still _ h.isNormal
  · split
    · exact returned ..
    · rw [raiseFault_of_passOnly]
      · exact returned ..
      · exact h.isNormal

theorem memoryResponse_still (r : Response) (h : s.AllStopped) : StillTo s (exec (.memoryResponse r) s) := by
  change StillTo s (execMemoryResponse r s)
  unfold execMemoryResponse
  split
  · split
    · exact .next (forwardedReturned_still _ r h)
    · split
      · exact internalReturn_still r h
      · exact .next (raiseFatal_still _ h.isNormal)
  · exact fun _ e => by cases e

/-- A block that has stopped withdraws the requests it has, and stays as it is. -/
theorem stopBlock_still (b : Block) (h : s.AllStopped) : Still s (stopBlock b s) := by
  obtain ⟨_, path, command, report, timing, mixer, label, governor, lines⟩ := h
  cases b with
  | path =>
    unfold stopBlock
    rw [← path]
    exact {}
  | command =>
    unfold stopBlock
    rw [← command]
    exact withdraw_still ..
  | report =>
    unfold stopBlock
    rw [← report]
    exact withdraw_still ..
  | timing =>
    unfold stopBlock
    rw [← timing]
    exact .refl s
  | mixer =>
    unfold stopBlock
    rw [← mixer]
    exact withdraw_still ..
  | label =>
    unfold stopBlock
    rw [← label]
    exact withdraw_still ..
  | governor =>
    unfold stopBlock
    rw [← governor]
    exact .refl s
  | line l =>
    unfold stopBlock settleLine
    rw [← lines l]
    exact (withdraw_still ..).after (Still.after (setLine_still rfl) (setLine_still rfl))

theorem eligible_of_stopped (h : s.path.stopped = true) (q : Fin 8) : s.eligible q = false := by
  simp [State.eligible, h]

theorem nextInternal_of_stopped (h : s.path.stopped = true) : s.nextInternal = none := by
  simp [State.nextInternal, eligible_of_stopped h]

/-- A stopped path unit grants the oldest forwarded request, or nothing (R18). -/
theorem arbitrate_of_stopped (h : s.path.stopped = true) (pick : BitVec 5) (n : Nat) :
    (∀ r rest, s.path.forward = r :: rest →
      arbitrate pick (n + 1) s = setLockout 0 (grantForwarded r rest s)) ∧
    (s.path.forward = [] → arbitrate pick (n + 1) s = setLockout 0 s) := by
  unfold arbitrate
  rw [nextInternal_of_stopped h]
  refine ⟨fun r rest forward => ?_, fun forward => ?_⟩ <;> rw [forward]

theorem grantBound_pos (s : State) : ∃ n, s.grantBound = n + 1 := ⟨s.grantBound - 1, by
  unfold State.grantBound
  omega⟩

theorem interceptedReadResponse_still (tag : BitVec 6) (s : State) :
    StillTo s (exec (.interceptedReadResponse tag) s) := by
  change StillTo s (execInterceptedReadResponse tag s)
  unfold execInterceptedReadResponse
  split
  · exact .same s
  · exact .next {}

/-- A stopped block drops what is handed to it. -/
theorem inbox_still (h : s.AllStopped) :
    StillTo s (exec .producerCountWrite s) ∧ StillTo s (exec .reportConsumedCountWrite s) ∧
      StillTo s (exec .labelConsumedCountWrite s) ∧ StillTo s (exec .gainFieldWrite s) ∧
      StillTo s (exec .governorVideoBoundary s) ∧ StillTo s (exec .measurementTimer s) := by
  have passOnly := h.isNormal
  obtain ⟨_, _, command, report, _, mixer, label, governor, _⟩ := h
  refine ⟨?_, ?_, ?_, ?_, ?_, ?_⟩
  · change StillTo s (execProducerCountWrite s)
    unfold execProducerCountWrite
    split
    · exact .same s
    · exact .pos command (.next {})
  · change StillTo s (execReportConsumedCountWrite s)
    unfold execReportConsumedCountWrite
    split
    · exact .same s
    · exact .pos report (.next {})
  · change StillTo s (execLabelConsumedCountWrite s)
    unfold execLabelConsumedCountWrite
    split
    · exact .same s
    · exact .pos label (.next {})
  · change StillTo s (execGainFieldWrite s)
    unfold execGainFieldWrite
    split
    · exact .same s
    · exact .pos mixer (.next {})
  · change StillTo s (execGovernorVideoBoundary s)
    unfold execGovernorVideoBoundary
    split
    · exact .same s
    · exact .pos governor (.next {})
  · change StillTo s (execMeasurementTimer s)
    unfold execMeasurementTimer
    split
    · exact .same s
    · refine .neg (fun normal => ?_) (.next {})
      rw [show s.isNormal = true from normal] at passOnly
      cases passOnly

theorem mixerAudioBoundary_still (us : List Upset) (h : s.AllStopped) :
    StillTo s (exec (.mixerAudioBoundary us) s) := by
  have struck := strikes_still us s
  obtain ⟨_, _, _, _, _, mixer, _⟩ := h.held struck.held
  change StillTo s (execMixerAudioBoundary us s)
  unfold execMixerAudioBoundary
  dsimp only
  refine .from ?_ struck
  split
  · exact .same _
  · exact .pos mixer (.next {})

theorem labelVideoBoundary_still (us : List Upset) (h : s.AllStopped) :
    StillTo s (exec (.labelVideoBoundary us) s) := by
  have struck := strikes_still us s
  obtain ⟨_, _, _, _, _, _, label, _⟩ := h.held struck.held
  change StillTo s (execLabelVideoBoundary us s)
  unfold execLabelVideoBoundary
  dsimp only
  refine .from ?_ struck
  split
  · exact .same _
  · exact .pos label (.next {})

theorem labelPost_still (us : List Upset) (h : s.AllStopped) : StillTo s (exec (.labelPost us) s) := by
  have struck := strikes_still us s
  have passOnly := (h.held struck.held).isNormal
  change StillTo s (if (strikes us s).mayPostLabel then _ else _)
  have barred : (strikes us s).mayPostLabel = false := by simp [State.mayPostLabel, passOnly]
  rw [barred]
  exact .next struck

theorem lineAudioBoundary_still (l : LineId) (h : s.AllStopped) : StillTo s (exec (.lineAudioBoundary l) s) := by
  obtain ⟨_, _, _, _, _, _, _, _, lines⟩ := h
  change StillTo s (execLineAudioBoundary l s)
  unfold execLineAudioBoundary
  split
  · exact .same s
  · refine .pos ?_ (.next (setLine_still rfl))
    rw [State.setLine_line_same]
    exact lines l

theorem receivedFrame_still (l : LineId) (us : List Upset) (h : s.AllStopped) :
    StillTo s (exec (.candidateFrame l us) s) ∧ StillTo s (exec (.lockedFrame l us) s) := by
  have struck := strikes_still us s
  obtain ⟨_, _, _, _, _, _, _, _, lines⟩ := h.held struck.held
  have stopped {p : Prop} : ¬(((strikes us s).line l).stopped = false ∧ p) := by simp [lines l]
  exact ⟨.neg stopped (.next struck), .neg stopped (.next struck)⟩

/-- A stopped line takes no step of its own but SYMBOL_SENT. -/
theorem line_still (l : LineId) (level : Symbol) (h : s.AllStopped) :
    StillTo s (exec (.frameEnd l) s) ∧ StillTo s (exec (.los l) s) ∧ StillTo s (exec (.codeViolation l) s) ∧
      StillTo s (exec (.symbolReceived l level) s) ∧ StillTo s (exec (.symbolSent l) s) := by
  obtain ⟨_, _, _, _, _, _, _, _, lines⟩ := h
  have stopped := lines l
  refine ⟨?_, .pos (.inl stopped) (.same s), .pos (.inl stopped) (.same s), .pos (.inr stopped) (.same s),
    .next (setLine_still (sendSymbol_held stopped))⟩
  change StillTo s (execFrameEnd l s)
  unfold execFrameEnd
  dsimp only
  split
  · exact .neg (by simp [stopped]) (.same s)
  · exact .same s

/-- No stopped block takes a command handed to it. -/
theorem handed_still (h : s.AllStopped) :
    StillTo s (exec .applyWindows s) ∧ StillTo s (exec .applySettings s) ∧ StillTo s (exec .jamTimecode s) ∧
      StillTo s (exec .clipMark s) ∧ StillTo s (exec .streamFlush s) ∧ StillTo s (exec .measureStart s) ∧
      StillTo s (exec .measureStop s) := by
  have passOnly : ¬ s.isNormal = true := by simp [h.isNormal]
  obtain ⟨_, _, command, _, timing, _, label, governor, _⟩ := h
  refine ⟨?_, ?_, ?_, ?_, ?_, ?_, ?_⟩
  · change StillTo s (execApplyWindows s)
    unfold execApplyWindows
    split
    · exact .pos command (.same s)
    · exact .same s
  · change StillTo s (execApplySettings s)
    unfold execApplySettings
    split
    · exact .pos command (.same s)
    · exact .same s
  · change StillTo s (execJamTimecode s)
    unfold execJamTimecode
    split
    · exact .pos timing (.same s)
    · exact .same s
  · change StillTo s (execClipMark s)
    unfold execClipMark
    split
    · exact .pos label (.same s)
    · exact .same s
  · change StillTo s (execStreamFlush s)
    unfold execStreamFlush
    split
    · exact .pos governor (.same s)
    · exact .same s
  · change StillTo s (execMeasureStart s)
    unfold execMeasureStart
    split
    · exact .neg passOnly (.same s)
    · exact .same s
  · change StillTo s (execMeasureStop s)
    unfold execMeasureStop
    split
    · exact .neg passOnly (.same s)
    · exact .same s

/-- No stopped line takes a command handed to it. -/
theorem handedLine_still (h : s.AllStopped) :
    StillTo s (exec .lineStart s) ∧ StillTo s (exec .lineHalt s) ∧ StillTo s (exec .lineClear s) ∧
      StillTo s (exec .lineResume s) ∧ StillTo s (exec .sendList s) := by
  obtain ⟨_, _, _, _, _, _, _, _, lines⟩ := h
  refine ⟨?_, ?_, ?_, ?_, ?_⟩
  · change StillTo s (execLineStart s)
    unfold execLineStart
    split
    · exact .pos (lines _) (.same s)
    · exact .same s
  · change StillTo s (execLineHalt s)
    unfold execLineHalt
    split
    · exact .pos (lines _) (.same s)
    · exact .same s
  · change StillTo s (execLineClear s)
    unfold execLineClear
    split
    · exact .pos (lines _) (.same s)
    · exact .same s
  · change StillTo s (execLineResume s)
    unfold execLineResume
    split
    · exact .pos (lines _) (.same s)
    · exact .same s
  · change StillTo s (execSendList s)
    unfold execSendList
    split
    · exact .pos (lines _) (.same s)
    · exact .same s

theorem reportPost_still (h : s.AllStopped) : StillTo s (exec .reportPost s) := by
  have barred : ¬ s.mayPost = true := by simp [State.mayPost, h.isNormal]
  exact .neg barred (.same s)

/-- A stopped part changes under a command that is neither an acceptance nor RESET only what `Still` leaves open. -/
theorem exec_still {c : Instr} (h : s.AllStopped) (accepts : ∀ pick, c ≠ .memoryPortAcceptance pick)
    (resets : ∀ cpb, c ≠ .reset cpb) : StillTo s (exec c s) := by
  have passOnly : ¬ s.isNormal = true := by simp [h.isNormal]
  have ⟨producer, reportCount, labelCount, gain, governorBoundary, timer⟩ := inbox_still h
  have ⟨windows, settings, jam, clipMark, flush, measureStart, measureStop⟩ := handed_still h
  have ⟨lineStart, lineHalt, lineClear, lineResume, sendList⟩ := handedLine_still h
  have ⟨_, _, _, _, timing, _⟩ := h
  cases c with
  | fabricRequest r us => exact fabricRequest_still r us h
  | memoryPortAcceptance pick => exact absurd rfl (accepts pick)
  | memoryResponse r => exact memoryResponse_still r h
  | reset cpb => exact absurd rfl (resets cpb)
  | producerCountWrite => exact producer
  | reportConsumedCountWrite => exact reportCount
  | labelConsumedCountWrite => exact labelCount
  | gainFieldWrite => exact gain
  | passOnlyEntry b => exact .neg passOnly (.next (stopBlock_still b h))
  | recordReadReturn r => exact internalReturn_still r h
  | completionWriteReturn r => exact internalReturn_still r h
  | applyWindows => exact windows
  | windowTableReadReturn r => exact internalReturn_still r h
  | applySettings => exact settings
  | settingsReadReturn r => exact internalReturn_still r h
  | jamTimecode => exact jam
  | clipMark => exact clipMark
  | streamFlush => exact flush
  | lineStart => exact lineStart
  | lineHalt => exact lineHalt
  | lineClear => exact lineClear
  | lineResume => exact lineResume
  | sendList => exact sendList
  | measureStart => exact measureStart
  | measureStop => exact measureStop
  | reportPost => exact reportPost_still h
  | reportPostWriteReturn r => exact internalReturn_still r h
  | referencePulse ref => exact .pos timing (.same s)
  | freeRunTimer ref => exact .pos timing (.same s)
  | lossTimer ref => exact .pos timing (.same s)
  | markEdge input high clocks => exact .pos timing (.same s)
  | mixerAudioBoundary us => exact mixerAudioBoundary_still us h
  | busOutWriteReturn r => exact internalReturn_still r h
  | labelVideoBoundary us => exact labelVideoBoundary_still us h
  | labelPost us => exact labelPost_still us h
  | labelWriteReturn r => exact internalReturn_still r h
  | governorVideoBoundary => exact governorBoundary
  | lineAudioBoundary l => exact lineAudioBoundary_still l h
  | frameEnd l =>
    have ⟨frameEnd, _⟩ := line_still l .space h
    exact frameEnd
  | payloadReadReturn r => exact internalReturn_still r h
  | fileReadReturn r => exact internalReturn_still r h
  | descriptorFetchReturn r => exact internalReturn_still r h
  | los l =>
    have ⟨_, los, _⟩ := line_still l .space h
    exact los
  | codeViolation l =>
    have ⟨_, _, violation, _⟩ := line_still l .space h
    exact violation
  | candidateFrame l us =>
    have ⟨candidate, _⟩ := receivedFrame_still l us h
    exact candidate
  | lockedFrame l us =>
    have ⟨_, locked⟩ := receivedFrame_still l us h
    exact locked
  | measurementTimer => exact timer
  | measWriteReturn r => exact internalReturn_still r h
  | interceptedReadResponse tag => exact interceptedReadResponse_still tag s
  | symbolReceived l level =>
    have ⟨_, _, _, received, _⟩ := line_still l level h
    exact received
  | symbolSent l =>
    have ⟨_, _, _, _, sent⟩ := line_still l .space h
    exact sent

/-- An acceptance puts the oldest forwarded request on the port, or nothing. -/
theorem memoryPortAcceptance_of_stopped (h : s.AllStopped) (pick : BitVec 5) :
    ∃ t, exec (.memoryPortAcceptance pick) s = .next t ∧
      Still s { t with path := { t.path with memoryOut := s.path.memoryOut } } ∧
      (t.path.memoryOut = none ∨ ∃ r rest, s.path.forward = r :: rest ∧ t.path.memoryOut = some
        { tag := r.tag.setWidth 8, request := { addr := r.addr, burst := r.burst } }) := by
  obtain ⟨_, path, _⟩ := h
  let cleared := s.setPath { s.path with memoryOut := none }
  obtain ⟨n, bound⟩ := grantBound_pos s
  obtain ⟨forwarded, idle⟩ := arbitrate_of_stopped (s := cleared) path pick n
  have run : exec (.memoryPortAcceptance pick) s = .next (arbitrate pick (n + 1) cleared) := by
    rw [← bound]
    rfl
  cases forward : s.path.forward with
  | nil =>
    rw [idle forward] at run
    exact ⟨_, run, {}, .inl rfl⟩
  | cons r rest =>
    rw [forwarded r rest forward] at run
    exact ⟨_, run, {}, .inr ⟨r, rest, rfl, rfl⟩⟩

end Sys2Proof.Machine

open Sys2Proof Sys2Proof.Machine

/-- Settles O58: under the entry of every block, a command other than RESET is dropped, answered at the ports, or marks
an upset. -/
theorem stoppedPartIsFrozen : Obligations.StoppedPartIsFrozen := by
  intro c s t stopped resets e
  obtain ⟨mode, _⟩ := id stopped
  by_cases accepts : ∃ pick, c = .memoryPortAcceptance pick
  · obtain ⟨pick, rfl⟩ := accepts
    obtain ⟨u, run, still, out⟩ := memoryPortAcceptance_of_stopped stopped pick
    rw [run] at e
    cases e
    exact ⟨still.frozen mode, stopped.held still.held, .inr out⟩
  · have still := exec_still stopped (fun pick e => accepts ⟨pick, e⟩) resets t e
    exact ⟨still.frozen mode, stopped.held still.held, .inl still.memoryOut⟩

end

section
/-! SUPPORT. The path unit: arrival, fatal causes, responses and requests of the part's own (R2, R3, R10, R16, R18). -/

set_option Elab.async false

namespace Sys2Proof.Machine

variable {s t u : State}

/-! ## The first of several places that passes a test -/

theorem vector_find?_eq_some_iff {α : Type} {n : Nat} (p : α → Bool) (v : Vector α n) (w : α) :
    v.toList.find? p = some w ↔ ∃ k : Fin n, v[k] = w ∧ p v[k] = true ∧ ∀ j : Fin n, j < k → p v[j] = false := by
  rw [List.find?_eq_some_iff_getElem]
  constructor
  · rintro ⟨passes, i, hi, rfl, first⟩
    rw [Vector.length_toList] at hi
    refine ⟨⟨i, hi⟩, by simp, by simpa using passes, fun j hj => ?_⟩
    simpa using first j.val hj
  · rintro ⟨k, rfl, passes, first⟩
    refine ⟨passes, k.val, by simp, by simp, fun j hj => ?_⟩
    simpa using first ⟨j, hj.trans k.isLt⟩ hj

theorem vector_find?_eq_none_iff {α : Type} {n : Nat} (p : α → Bool) (v : Vector α n) :
    v.toList.find? p = none ↔ ∀ k : Fin n, p v[k] = false := by
  rw [List.find?_eq_none]
  constructor
  · intro none k
    have mem : v[k] ∈ v.toList := by simp
    simpa using none _ mem
  · intro none x mem
    obtain ⟨i, hi, rfl⟩ := List.mem_iff_getElem.mp mem
    rw [Vector.length_toList] at hi
    simpa using none ⟨i, hi⟩

/-! ## Windows and spanning (R4, R7, R9, R10) -/

theorem requestByte_eq (r : Request) : requestByte r = 8 * r.addr.toNat := rfl

theorem WindowEntry.enabled_iff (w : WindowEntry) : w.enabled = true ↔ w.kind ≠ 0 ∧ w.size ≠ 0 := by
  simp [WindowEntry.enabled]

theorem WindowEntry.covers_iff (w : WindowEntry) (byte : Nat) :
    w.covers byte = true ↔
      (w.kind ≠ 0 ∧ w.size ≠ 0) ∧ w.base.toNat ≤ byte ∧ byte < w.base.toNat + 4096 * w.size.toNat := by
  rw [WindowEntry.covers, Bool.and_eq_true, Bool.and_eq_true, WindowEntry.enabled_iff, decide_eq_true_eq,
    decide_eq_true_eq, and_assoc]
  rfl

theorem requestSpans_iff (r : Request) :
    requestSpans r = true ↔ 8 * r.addr.toNat / 4096 ≠ (8 * r.addr.toNat + 8 * r.burst.beats - 1) / 4096 ∧
      0 < r.burst.beats := by
  rw [requestSpans, requestByte_eq, decide_eq_true_eq]
  omega

/-! ## PASS-ONLY requests and fatal causes (R3, R10, R201, R202) -/

theorem outstanding_of_not_tagFree {r : Request} (h : ¬ TagFree r s) :
    (s.path.tags[r.tag.toFin]).outstanding = true := by
  unfold TagFree at h
  simp only [TagRecord.outstanding, Bool.or_eq_true, decide_eq_true_eq]
  omega

theorem arrive_of_passOnly {r : Request} (h : s.isNormal = false) (free : TagFree r s) :
    arrive r s = passThrough r s := by
  simp only [arrive, outstanding_of_tagFree free, h]
  rfl

/-- The request that reveals a fatal cause is handled as R10 says, in the state that the cause has left. -/
theorem arrive_of_fatal {r : Request} (h : ¬ TagFree r s ∨ (s.isNormal = true ∧ s.parityErrors ≠ [])) :
    ∃ c, arrive r s = passThrough r (raiseFatal c s) ∧
      (¬ TagFree r s → c = .tagInUse r.tag) ∧
      (TagFree r s → c = .windowParity (parityEntry s.parityErrors)) := by
  by_cases free : TagFree r s
  · obtain ⟨normal, held⟩ := h.resolve_left (not_not.mpr free)
    refine ⟨_, ?_, fun used => absurd free used, fun _ => rfl⟩
    simp only [arrive, outstanding_of_tagFree free, normal, List.isEmpty_eq_false_iff.mpr held]
    rfl
  · refine ⟨_, ?_, fun _ => rfl, fun f => absurd f free⟩
    simp only [arrive, outstanding_of_not_tagFree free, if_true]

/-- The entry a WINDOW_PARITY cause names is one of those found, whatever the free choice among them is. -/
theorem parityEntry_mem {found : List (Fin 16)} (h : found ≠ []) : ∃ i ∈ found, parityEntry found = i.val := by
  unfold parityEntry
  split
  next i => exact ⟨i, List.mem_singleton_self i, rfl⟩
  next =>
    have lt := Nat.mod_lt (Config.parityChoice found.length) (List.length_pos_iff.mpr h)
    rw [List.getElem?_eq_getElem lt]
    exact ⟨_, List.getElem_mem lt, rfl⟩

theorem raiseFatal_mode (c : FatalCause) (s : State) : (raiseFatal c s).fault.mode = .passOnly := by
  cases normal : s.isNormal with
  | true => rw [raiseFatal_of_normal c normal]
  | false =>
    rw [raiseFatal_of_passOnly c normal]
    exact isNormal_false_iff.mp normal

theorem raiseFatal_controlPage (c : FatalCause) (s : State) : (raiseFatal c s).controlPage = s.controlPage := by
  rw [State.controlPage, raiseFatal_path, State.controlPage]

theorem raiseFatal_statusRead (c : FatalCause) (r : Request) (s : State) :
    StatusRead r (raiseFatal c s) ↔ StatusRead r s := by
  rw [StatusRead, StatusRead, raiseFatal_controlPage]

/-- The status area does not show the path unit. -/
theorem statusBeats_congr (offset n : Nat) (h : ChangesOnly [.path, .fault] s t) :
    t.statusBeats offset n = State.statusBeats { s with fault := t.fault } offset n := by
  have same : t = { s with path := t.path, fault := t.fault } := by
    rw [← h.command, ← h.report, ← h.timing, ← h.mixer, ← h.label, ← h.governor, ← h.lines, ← h.pending]
  rw [same]
  rfl

/-! ## Every arrival forwards or answers (R2) -/

/-- A tap leaves the path unit as it was. -/
theorem windowWrite_path (w : WindowEntry) (r : Request) (beats : List Beat) (s : State) :
    (windowWrite w r beats s).path = (forwardRequest r s).path := by
  unfold windowWrite
  dsimp only
  split
  · rfl
  · rfl
  · unfold pictureTap
    dsimp only
    split
    · split
      · exact (frameCompletion_changes ..).path
      · rfl
    · rfl
  · exact (codedTap_changes ..).path
  all_goals exact (raiseFault_changes ..).path

/-- What the classification leaves of the path unit: the request is forwarded, or a read is answered. -/
theorem classify_path (r : Request) (s : State) :
    (classify r s).path = (forwardRequest r s).path ∨
      (∃ n, r.burst = .read n) ∧ ∃ beats, (classify r s).path = (interceptRead r beats s).path := by
  unfold classify controlPageRequest classifyWindow
  split
  · exact .inl (raiseFault_changes ..).path
  split
  · split
    next n burst =>
      split
      · exact .inr ⟨⟨n, burst⟩, _, rfl⟩
      · exact .inl rfl
    · exact .inl (snoopBeats_changes ..).path
  · split
    · exact .inl rfl
    · split
      next n burst =>
        unfold windowRead
        dsimp only
        split
        · split
          · exact .inr ⟨⟨n, burst⟩, _, rfl⟩
          · exact .inl rfl
        · exact .inl rfl
      · exact .inl (windowWrite_path ..)

/-- What an arrival leaves of the path unit, up to the queues and the lockout count that a fatal cause settles. -/
theorem arrive_path (r : Request) (s : State) :
    ∃ u : State, u.path = { s.path with queues := u.path.queues, lockout := u.path.lockout } ∧
      ((arrive r s).path = (forwardRequest r u).path ∨
        (∃ n, r.burst = .read n) ∧ ∃ beats, (arrive r s).path = (interceptRead r beats u).path) := by
  have passed (u : State) : (passThrough r u).path = (forwardRequest r u).path ∨
      (∃ n, r.burst = .read n) ∧ ∃ beats, (passThrough r u).path = (interceptRead r beats u).path := by
    by_cases status : StatusRead r u
    · obtain ⟨reads, _⟩ := id status
      rw [passThrough_of_statusRead status]
      exact .inr ⟨reads, _, rfl⟩
    · rw [passThrough_of_not_statusRead status]
      exact .inl rfl
  unfold arrive
  split
  · exact ⟨_, raiseFatal_path .., passed _⟩
  split
  · split
    · exact ⟨s, rfl, classify_path r s⟩
    · exact ⟨_, raiseFatal_path .., passed _⟩
  · exact ⟨s, rfl, passed s⟩

theorem strikes_forward (us : List Upset) (s : State) : (strikes us s).path.forward = s.path.forward := by
  rw [strikes_path]

end Sys2Proof.Machine

open Sys2Proof Sys2Proof.Machine

/-- Settles O3: each row reaches the forward queue by its test of R7 or R10, and the tests are those of the rules. -/
theorem plainRequestIsForwardedOnly : Obligations.PlainRequestIsForwardedOnly := by
  refine ⟨?forwarded, ?tests⟩
  case forwarded =>
    intro r us s₀ s arrives row
    rw [exec_fabricRequest_of_arrives arrives]
    rcases row with ⟨passOnly, free, status⟩ | ⟨classified, spans, out, window⟩ |
      ⟨classified, spans, inside, ⟨n, burst⟩, status⟩
    · rw [arrive_of_passOnly passOnly free, passThrough_of_not_statusRead status, forwardRequest_of_tagFree free]
    · obtain ⟨_, free, _⟩ := id classified
      rw [arrive_of_classified classified, ← forwardRequest_of_tagFree free]
      simp only [classify, spans, pageOffset_of_out out, classifyWindow, window]
      rfl
    · obtain ⟨_, free, _⟩ := id classified
      rw [arrive_of_classified classified, ← forwardRequest_of_tagFree free]
      have outside : ¬ (0x1000 ≤ requestByte r - s.controlPage ∧ requestByte r - s.controlPage ≤ 0x13FF) := by
        obtain ⟨low, high⟩ := inside
        intro area
        exact status ⟨⟨n, burst⟩, spans, by omega, by omega⟩
      simp only [classify, spans, pageOffset_of_in inside, controlPageRequest, burst, outside]
      rfl
  case tests =>
    intro r s byte enabled covers
    have covered (w : WindowEntry) : w.covers (requestByte r) = true ↔ covers w := w.covers_iff _
    have uncovered (w : WindowEntry) : w.covers (requestByte r) = false ↔ ¬ covers w := by
      rw [← Bool.not_eq_true, covered]
    refine ⟨rfl, requestSpans_iff r, fun w => ?_, ?_, fun k => ?_⟩
    · rw [State.windowOf, vector_find?_eq_some_iff]
      refine exists_congr fun k => and_congr_right fun same => ?_
      rw [covered, same]
      exact and_congr_right fun _ => forall_congr' fun j => imp_congr_right fun _ => uncovered _
    · rw [State.windowOf, vector_find?_eq_none_iff]
      exact forall_congr' fun k => uncovered _
    · simp only [State.parityErrors, List.mem_filter, List.mem_finRange, true_and, Bool.and_eq_true]
      exact and_congr_right fun _ => WindowEntry.enabled_iff _

/-- Settles O6: the cause is taken first, and the request is then handled by R10. -/
theorem fatalRequestIsStillHandled : Obligations.FatalRequestIsStillHandled := by
  intro r us s₀ s arrives reveals
  obtain ⟨c, run, used, parity⟩ := arrive_of_fatal reveals
  have fatal := raiseFatal_changes c s
  have passed := passThrough_changes r (raiseFatal c s)
  have fault : (passThrough r (raiseFatal c s)).fault = (raiseFatal c s).fault := passed.fault
  refine ⟨_, (exec_fabricRequest_of_arrives arrives).trans (congrArg _ run),
    fatal.comp passed, ?_, ?_, ?_, ?_, ?_, ?_⟩
  · rw [fault, raiseFatal_mode]
  · intro normal busy
    rw [fault, raiseFatal_of_normal c normal, used busy]
  · intro normal free
    obtain ⟨_, held⟩ := reveals.resolve_left (not_not.mpr free)
    obtain ⟨i, mem, entry⟩ := parityEntry_mem held
    refine ⟨i, mem, ?_⟩
    rw [fault, raiseFatal_of_normal c normal, parity free, entry]
  · intro passOnly
    rw [fault, raiseFatal_of_passOnly c passOnly]
  · intro status
    rw [passThrough_of_not_statusRead ((raiseFatal_statusRead c r s).not.mpr status)]
    have path := raiseFatal_path c s
    constructor
    · change (raiseFatal c s).path.forward ++ [r] = _
      rw [path]
    · change (raiseFatal c s).path.intercepted = _
      rw [path]
  · intro status shown beats
    have path := raiseFatal_path c s
    have area : (raiseFatal c s).statusBeats (requestByte r - (raiseFatal c s).controlPage) r.burst.beats = beats := by
      rw [statusBeats_congr _ _ (fatal.mono (by decide)), raiseFatal_controlPage, ← fault]
    rw [passThrough_of_statusRead ((raiseFatal_statusRead c r s).mpr status), area]
    constructor
    · change (raiseFatal c s).path.forward = _
      rw [path]
    · change (raiseFatal c s).path.intercepted ++ _ = _
      rw [path]

/-- Settles O12: upsets and fatal causes leave the queue, and every row of the classification forwards the request or,
for a read, answers it. -/
theorem everyRequestIsForwardedOrAnswered : Obligations.EveryRequestIsForwardedOrAnswered := by
  intro r us s wellFormed room
  refine ⟨_, exec_fabricRequest_of_arrives ⟨wellFormed, room, rfl⟩, ?_⟩
  obtain ⟨u, path, handled⟩ := arrive_path r (strikes us s)
  have start : u.path.forward = s.path.forward ∧ u.path.intercepted = s.path.intercepted ∧
      u.path.tags = s.path.tags := by
    rw [path, strikes_path]
    exact ⟨rfl, rfl, rfl⟩
  obtain ⟨forward, intercepted, tags⟩ := start
  have own (x : TagRecord) : (u.path.tags.set r.tag.toFin x)[r.tag.toFin] = x := by
    rw [getElem_set_fin, if_pos rfl]
  rcases handled with forwarded | ⟨reads, beats, answered⟩
  · refine .inl ⟨?_, ?_, ?_⟩ <;> rw [forwarded]
    · exact congrArg (· ++ [r]) forward
    · exact intercepted
    · refine (congrArg TagRecord.forwarded (own _)).trans ?_
      rw [tags]
  · refine .inr ⟨reads, ?_, ⟨beats, ?_⟩, ?_⟩ <;> rw [answered]
    · exact forward
    · exact congrArg (· ++ [_]) intercepted
    · refine (congrArg TagRecord.intercepted (own _)).trans ?_
      rw [tags]

end

section
/-! SUPPORT. The path unit: the arbiter, responses, requests of the part's own and the PASS-ONLY entry (R15-R19,
R201). -/

set_option Elab.async false

namespace Sys2Proof.Machine

variable {s t u : State}

/-! ## The turn (R17) -/

/-- Going round from the turn position reaches every requester. -/
theorem nextInternal_eq_none_iff : s.nextInternal = none ↔ ∀ q, s.eligible q = false := by
  rw [State.nextInternal, List.find?_eq_none]
  constructor
  · intro none q
    have reached : q ∈ (List.finRange 8).map fun k => s.path.turn + k :=
      List.mem_map.mpr ⟨q - s.path.turn, List.mem_finRange _, add_sub_cancel ..⟩
    simpa using none q reached
  · intro none q _
    simp [none q]

theorem any_eligible_iff : (List.finRange 8).any s.eligible = true ↔ ¬ ∀ q, s.eligible q = false := by
  simp

theorem nextInternal_eligible {q : Fin 8} (h : s.nextInternal = some q) : s.eligible q = true := List.find?_some h

/-- An eligible request waits, and a tag is free for it (R16, R18). -/
theorem eligible_iff (q : Fin 8) : s.eligible q = true ↔ s.path.stopped = false ∧ (∃ k : Fin 32, s.path.pool[k] = none) ∧
    ∃ w, (s.path.queues[q]).waiting = some w ∧ w.ahead = 0 := by
  unfold State.eligible
  simp only [Bool.and_eq_true, Bool.not_eq_true', and_assoc]
  refine and_congr_right fun _ => and_congr ?_ ?_
  · simp only [List.any_eq_true, Option.isNone_iff_eq_none]
    constructor
    · rintro ⟨x, mem, rfl⟩
      obtain ⟨i, hi, e⟩ := List.mem_iff_getElem.mp mem
      rw [Vector.length_toList] at hi
      exact ⟨⟨i, hi⟩, by simpa using e⟩
    · rintro ⟨k, free⟩
      exact ⟨none, by rw [← free]; simp, rfl⟩
  · split
    next w waiting =>
      rw [beq_iff_eq]
      refine ⟨fun granted => ⟨w, waiting, granted⟩, fun ⟨v, held, granted⟩ => ?_⟩
      rw [waiting] at held
      cases held
      exact granted
    next waiting =>
      refine iff_of_false Bool.false_ne_true fun ⟨v, held, _⟩ => ?_
      rw [waiting] at held
      cases held

/-! ## One acceptance -/

/-- The state before the grants of an acceptance: nothing on the port yet. -/
def State.cleared (s : State) : State := s.setPath { s.path with memoryOut := none }

theorem cleared_eligible (s : State) (q : Fin 8) : s.cleared.eligible q = s.eligible q := rfl

theorem exec_memoryPortAcceptance (pick : BitVec 5) (s : State) :
    ∃ n, exec (.memoryPortAcceptance pick) s = .next (arbitrate pick (n + 1) s.cleared) := by
  obtain ⟨n, bound⟩ := grantBound_pos s
  exact ⟨n, by rw [← bound]; rfl⟩

theorem arbitrate_of_forwarded {r : Request} {rest : List Request} (pick : BitVec 5) (n : Nat)
    (forward : s.path.forward = r :: rest) (h : (∀ q, s.eligible q = false) ∨ s.path.lockout ≠ 16) :
    arbitrate pick (n + 1) s = setLockout (if (List.finRange 8).any s.eligible then s.path.lockout + 1 else 0)
      (grantForwarded r rest s) := by
  unfold arbitrate
  cases turn : s.nextInternal with
  | none =>
    have none : ¬ (List.finRange 8).any s.eligible = true := by
      rw [any_eligible_iff, not_not]
      exact nextInternal_eq_none_iff.mp turn
    rw [forward, if_neg none]
  | some q =>
    have waits : ¬ ∀ q, s.eligible q = false := fun none => by
      rw [nextInternal_eq_none_iff.mpr none] at turn
      cases turn
    have below : s.path.lockout ≠ Config.lockoutLimit := h.resolve_left waits
    rw [forward, if_pos (any_eligible_iff.mpr waits)]
    simp only [below, if_false]

theorem arbitrate_of_idle (pick : BitVec 5) (n : Nat) (forward : s.path.forward = [])
    (none : ∀ q, s.eligible q = false) : arbitrate pick (n + 1) s = setLockout 0 s := by
  unfold arbitrate
  rw [nextInternal_eq_none_iff.mpr none, forward]

/-! ## Responses (R2, R3, R18) -/

theorem toFin_of_lt {n v : Nat} (h : v < n) : toFin n v = some ⟨v, h⟩ := dif_pos h

theorem toFin_of_le {n v : Nat} (h : n ≤ v) : toFin n v = none := dif_neg (Nat.not_lt.mpr h)

theorem toFin_eq_some_iff {n v : Nat} {k : Fin n} : toFin n v = some k ↔ v = k.val := by
  unfold toFin
  split
  · rw [Option.some.injEq, Fin.ext_iff]
  · have := k.isLt
    constructor
    · intro e
      cases e
    · omega

theorem exec_memoryResponse_of_fabric {r : Response} {k : Fin 64} (wellFormed : r.wellFormed = true)
    (tag : r.tag.toNat = k.val) : exec (.memoryResponse r) s = .next (forwardedReturned k r s) := by
  change execMemoryResponse r s = _
  unfold execMemoryResponse
  rw [if_pos wellFormed, toFin_eq_some_iff.mpr tag]

theorem exec_memoryResponse_of_internal {r : Response} (tag : 64 ≤ r.tag.toNat) :
    exec (.memoryResponse r) s =
      if r.wellFormed then
        if (s.heldBy r.tag).isSome then internalReturn (fun _ => true) internalReturned r s
        else .next (raiseFatal (.unknownTag r.tag) s)
      else .refused .malformedResponse := by
  change execMemoryResponse r s = _
  unfold execMemoryResponse
  rw [toFin_of_le tag]

/-- Of two ways to take a response only what they do with its own request counts. -/
theorem internalReturn_congr {wanted wanted' : Purpose → Bool} {taken taken' : Issued → Response → State → State}
    {r : Response} {k : Fin 32} {i : Issued} (held : s.heldBy r.tag = some (k, i)) (h : wanted i.purpose = true)
    (h' : wanted' i.purpose = true) (same : taken i r = taken' i r) :
    internalReturn wanted taken r s = internalReturn wanted' taken' r s := by
  simp only [internalReturn, held, h, h', same]

/-- The response is the requester's own return event (log 13). -/
theorem exec_memoryResponse_of_held {r : Response} {k : Fin 32} {i : Issued} (held : s.heldBy r.tag = some (k, i)) :
    exec (.memoryResponse r) s = internalReturn (fun _ => true) internalReturned r s := by
  obtain ⟨tag, _⟩ := heldBy_eq held
  rw [exec_memoryResponse_of_internal (by omega), held]
  unfold internalReturn
  split <;> rfl

theorem exec_returnCommand {r : Response} {k : Fin 32} {i : Issued} (held : s.heldBy r.tag = some (k, i)) :
    exec (returnCommand i.purpose r) s = internalReturn (fun _ => true) internalReturned r s := by
  obtain ⟨purpose, request, stale⟩ := i
  cases purpose
  all_goals exact internalReturn_congr held rfl rfl rfl

theorem internalReturn_of_discarded {wanted : Purpose → Bool} {taken : Issued → Response → State → State}
    {r : Response} {k : Fin 32} {i : Issued} (wellFormed : r.wellFormed = true) (held : s.heldBy r.tag = some (k, i))
    (h : wanted i.purpose = true) (discarded : s.discards i.purpose = true) :
    internalReturn wanted taken r s = .next (freeTag k s) := by
  simp [internalReturn, wellFormed, held, h, discarded]

theorem discards_iff (p : Purpose) : s.discards p = true ↔ s.path.stopped = true ∨ s.requesterStopped p = true := by
  simp [State.discards]

theorem acceptResponse_eq (k : Fin 32) (i : Issued) (r : Response) (s : State) :
    acceptResponse k i r s = if r.ok then freeTag k s
      else if s.isNormal then faultedState 1 (failAt i.request.addr) (freeTag k s) else freeTag k s := by
  cases normal : s.isNormal with
  | true => rw [acceptResponse_of_normal k i r normal, if_pos rfl]
  | false =>
    have normal' : (freeTag k s).isNormal = false := normal
    unfold acceptResponse
    dsimp only
    rw [raiseFault_of_passOnly _ _ normal', if_neg Bool.false_ne_true]

/-! ## Requests of the part's own (R16, R25) -/

/-- A request whose presentation the requester notes nothing of. -/
theorem notePresented_of_fixed {m : Made} {r : MemRequest} (fixed : m.fixed = some r)
    (h : ∀ f k, m.purpose ≠ .busWrite f k) (s : State) : notePresented m s = s := by
  unfold notePresented
  split
  next f k purpose => exact absurd purpose (h f k)
  next => rw [fixed]; rfl
  next => rfl

theorem requestOf_of_fixed {m : Made} {r : MemRequest} (fixed : m.fixed = some r) : s.requestOf m = some r := by
  unfold State.requestOf
  rw [fixed]

theorem setQueue_queues_same (q : Fin 8) (x : RequestQueue) (s : State) : (s.setQueue q x).path.queues[q] = x := by
  simp

theorem makeRequest_of_first {q : Fin 8} {m : Made} {r : MemRequest} (normal : s.isNormal = true)
    (fixed : m.fixed = some r) (h : ∀ f k, m.purpose ≠ .busWrite f k)
    (waiting : (s.path.queues[q]).waiting = none) (later : (s.path.queues[q]).later = []) :
    makeRequest q m s = s.setQueue q
      { waiting := some { purpose := m.purpose, request := r, ahead := s.path.forward.length, stale := false }
        later := [] } := by
  have normal' (x : RequestQueue) : (s.setQueue q x).isNormal = true := normal
  unfold makeRequest presentNext
  simp only [normal, normal', if_true, setQueue_queues_same, waiting, later, List.nil_append,
    requestOf_of_fixed fixed, notePresented_of_fixed fixed h, State.setQueue_setQueue]
  rfl

theorem makeRequest_of_waiting {q : Fin 8} {m : Made} {w : Waiting} (normal : s.isNormal = true)
    (waiting : (s.path.queues[q]).waiting = some w) :
    makeRequest q m s =
      s.setQueue q { waiting := some w, later := (s.path.queues[q]).later ++ [m] } := by
  unfold makeRequest presentNext
  simp only [normal, if_true, setQueue_queues_same, waiting]

theorem makeRequest_of_passOnly (q : Fin 8) (m : Made) (h : s.isNormal = false) : makeRequest q m s = s := by
  simp [makeRequest, h]

/-! ## The entry into PASS-ONLY mode (R175, R181, R201) -/

/-- The output of a stopped line: the hold signal, or no signal with rate class OFF. -/
theorem Line.output_of_stopped {x : Line} (h : x.stopped = true) :
    x.output = if x.applied.rate = .off then .noSignal else .hold := by
  unfold Line.output
  rw [h]
  rfl

theorem Line.settleOutput_of_stopped {x : Line} (h : x.stopped = true) :
    let silent := x.applied.rate = .off
    x.settleOutput = { x with
      coder := if silent then { x.coder with pending := 0, out := [] } else x.coder
      level := if silent then .space else x.level
      retransmit := []
      looped := if x.applied.loopback = .localLoop then x.looped else [] } := by
  intro silent
  unfold Line.settleOutput
  rw [x.output_of_stopped h]
  by_cases off : silent <;> simp [show (x.applied.rate = .off) = silent from rfl, off]

theorem settleLine_setLine (l : LineId) (x : Line) (s : State) :
    settleLine l (s.setLine l x) = s.setLine l x.settleOutput := by
  rw [settleLine, State.setLine_line_same, State.setLine_setLine]

theorem stopLine_eq (l : LineId) (s : State) :
    stopBlock (.line l) s =
      withdraw (lineQueue l) (s.setLine l (Line.settleOutput { s.line l with stopped := true })) := by
  rw [← settleLine_setLine]
  rfl

end Sys2Proof.Machine

open Sys2Proof Sys2Proof.Machine

/-- Settles O13: the forwarded request's turn is the case of the arbiter with no eligible request or a lockout count
below its limit. -/
theorem forwardedRequestIsGranted : Obligations.ForwardedRequestIsGranted := by
  intro pick s
  obtain ⟨n, run⟩ := exec_memoryPortAcceptance pick s
  rw [run]
  refine ⟨fun r rest forward turn => ?_, fun forward none => ?_⟩
  · rw [arbitrate_of_forwarded pick n (s := s.cleared) forward turn]
    rfl
  · rw [arbitrate_of_idle pick n (s := s.cleared) forward none]
    rfl

/-- Settles O15: by the port, and by what the tag still awaits. -/
theorem responsesAtThePorts : Obligations.ResponsesAtThePorts := by
  intro s
  refine ⟨?forwarded, ?unknown, ?discarded, ?intercepted⟩
  case forwarded =>
    intro r k wellFormed tag awaited t
    rw [exec_memoryResponse_of_fabric wellFormed tag, forwardedReturned, if_neg awaited.ne']
    rfl
  case unknown =>
    intro r wellFormed none
    have run : exec (.memoryResponse r) s = .next (raiseFatal (.unknownTag r.tag) s) := by
      rcases none with ⟨k, tag, counted⟩ | ⟨tag, held⟩
      · rw [exec_memoryResponse_of_fabric wellFormed tag, forwardedReturned, if_pos counted]
      · rw [exec_memoryResponse_of_internal tag, if_pos wellFormed, held]
        rfl
    have path := raiseFatal_path (.unknownTag r.tag) s
    refine ⟨_, run, raiseFatal_changes .., raiseFatal_mode .., ?_, ?_, ?_, fun normal => ?_, fun passOnly => ?_⟩
    · rw [path]
    · rw [path]
    · rw [path]
    · rw [raiseFatal_of_normal _ normal]
    · rw [raiseFatal_of_passOnly _ passOnly]
      exact ⟨rfl, rfl⟩
  case discarded =>
    intro r k i wellFormed held stopped
    rw [exec_memoryResponse_of_held held,
      internalReturn_of_discarded wellFormed held rfl ((discards_iff _).mpr stopped)]
    rfl
  case intercepted =>
    intro tag before after x waits own others t tags
    have found : s.path.intercepted.find? (fun y => y.tag == tag) = some x := by
      rw [waits, List.find?_append, List.find?_eq_none.mpr fun y mem => by simpa using others y mem]
      simp [own]
    have erased : s.path.intercepted.erase x = before ++ after := by
      have fresh : x ∉ before := fun mem => others x mem own
      rw [waits, List.erase_append_right _ fresh, List.erase_cons_head]
    change execInterceptedReadResponse tag s = _
    unfold execInterceptedReadResponse
    rw [found]
    dsimp only
    rw [erased]
    rfl

/-- Settles O16: by the purpose of the request that holds the tag. -/
theorem responsesReachTheirRequester : Obligations.ResponsesReachTheirRequester := by
  intro r k i s held
  refine ⟨(exec_memoryResponse_of_held held).trans (exec_returnCommand held).symm, ?_⟩
  intro wellFormed fits path requester freed
  have taken : s.discards i.purpose = false := by simp [State.discards, path, requester]
  rw [exec_memoryResponse_of_held held, internalReturn_of_taken wellFormed held fits taken rfl, acceptResponse_eq]
  rfl

/-- Settles O17: by what the requester's queue holds. -/
theorem requestsAreMadeInOrder : Obligations.RequestsAreMadeInOrder := by
  refine ⟨?made, fun q m s passOnly => makeRequest_of_passOnly q m passOnly, ?completed⟩
  case made =>
    intro q m r s normal fixed notBus x
    refine ⟨fun waiting later => makeRequest_of_first normal fixed notBus waiting later, fun waits => ?_⟩
    obtain ⟨w, waiting⟩ := Option.isSome_iff_exists.mp waits
    rw [makeRequest_of_waiting normal waiting, ← waiting]
  case completed =>
    intro c result s normal running queue beat write
    rw [complete_of_running c result running]
    refine makeRequest_of_first (q := commandQueue) normal rfl (fun _ _ e => by cases e) ?_ ?_
    · exact congrArg RequestQueue.waiting queue
    · exact congrArg RequestQueue.later queue

/-- Settles O21: one place of the table of target gains is set. -/
theorem gainValueBecomesTheTarget : Obligations.GainValueBecomesTheTarget := by
  intro k g rest s handed running
  have run : exec .gainFieldWrite s =
      .next (s.setMixer { s.mixer with gains := rest, targets := s.mixer.targets.set k g }) := by
    change execGainFieldWrite s = _
    simp only [execGainFieldWrite, handed, State.setMixer_mixer, running]
    rfl
  refine ⟨_, run, rfl, ?_, fun j other => ?_⟩
  · exact (getElem_set_fin ..).trans (if_pos rfl)
  · exact (getElem_set_fin ..).trans (if_neg other)

/-- Settles O22: each block stops, and a line's output is settled then. -/
theorem everyBlockTakesThePassOnlyEntry : Obligations.EveryBlockTakesThePassOnlyEntry := by
  intro s
  refine ⟨fun normal b => if_pos normal, fun passOnly => ?_⟩
  intro none' settled
  have entry (b : Block) : exec (.passOnlyEntry b) s = .next (stopBlock b s) := by
    have notNormal : ¬ s.isNormal = true := by simp [passOnly]
    exact if_neg notNormal
  refine ⟨entry _, entry _, entry _, entry _, entry _, entry _, entry _, fun l => ?_⟩
  let x : Line := { s.line l with stopped := true }
  let t := s.setLine l x.settleOutput
  have run : exec (.passOnlyEntry (.line l)) s = .next (withdraw (lineQueue l) t) := by rw [entry, stopLine_eq]
  have lines : (withdraw (lineQueue l) t).lines = t.lines := (withdraw_changes ..).lines
  have same (m : LineId) : (withdraw (lineQueue l) t).line m = t.line m := congrArg (·[m]) lines
  have own : (withdraw (lineQueue l) t).line l = x.settleOutput := (same l).trans (State.setLine_line_same ..)
  refine ⟨_, run, (State.setLine_changes ..).comp (withdraw_changes ..), ⟨fun m other => ?_⟩, ?_,
    own.trans (Line.settleOutput_of_stopped rfl), ?_⟩
  · exact (same m).trans (State.setLine_line_other _ _ other)
  · unfold settled
    rw [apply_ite State.path]
    exact apply_ite State.path ..
  · rw [own]
    exact Line.output_of_stopped (x := x.settleOutput) rfl

end

section
/-! SUPPORT. Structures as runs of little-endian fields: what a field at an offset holds (R214, Chapter 11). -/

set_option Elab.async false

namespace Sys2Proof.Machine

/-! ## Bytes of a number (R214) -/

theorem leBytes_length (n v : Nat) : (leBytes n v).length = n := by
  induction n generalizing v with
  | zero => rfl
  | succ n ih => rw [leBytes, List.length_cons, ih]

theorem ofLE_leBytes (n v : Nat) : ofLE (leBytes n v) = v % 256 ^ n := by
  induction n generalizing v with
  | zero => rw [pow_zero, Nat.mod_one]; rfl
  | succ n ih =>
    have low : (BitVec.ofNat 8 v).toNat = v % 256 := BitVec.toNat_ofNat ..
    rw [leBytes, ofLE, ih, low, pow_succ', Nat.mod_mul]

theorem leBytes_zero (n : Nat) : leBytes n 0 = List.replicate n 0 := by
  induction n with
  | zero => rfl
  | succ n ih => rw [leBytes, Nat.zero_div, ih]; rfl

theorem leBytes_one (v : Nat) : leBytes 1 v = [BitVec.ofNat 8 v] := rfl

theorem flagByte_eq (b : Bool) : flagByte b = leBytes 1 (if b then 1 else 0) := by
  cases b <;> rfl

/-! ## A field at an offset -/

theorem field_append_left {xs : List Byte} {offset n : Nat} (h : offset + n ≤ xs.length) (ys : List Byte) :
    field (xs ++ ys) offset n = field xs offset n := by
  rw [field, slice, List.drop_append_of_le_length (by omega), List.take_append_of_le_length]
  · rfl
  · rw [List.length_drop]
    omega

theorem field_append_right {xs : List Byte} {length : Nat} (h : xs.length = length) (ys : List Byte) (offset n : Nat) :
    field (xs ++ ys) (length + offset) n = field ys offset n := by
  rw [field, slice, ← h, List.drop_append, List.drop_of_length_le (Nat.le_add_right ..), List.nil_append,
    Nat.add_sub_cancel_left]
  rfl

theorem field_leBytes (n v : Nat) : field (leBytes n v) 0 n = v % 256 ^ n := by
  have all : (leBytes n v).take n = leBytes n v := List.take_of_length_le (leBytes_length n v).le
  rw [field, slice, List.drop_zero, all, ofLE_leBytes]

/-- The structure at one place of an array of structures of one length. -/
theorem field_flatMap {α : Type} {g : α → List Byte} {w : Nat} (h : ∀ x, (g x).length = w) {xs : List α} {k : Nat}
    (hk : k < xs.length) {offset n : Nat} (inside : offset + n ≤ w) :
    field (xs.flatMap g) (w * k + offset) n = field (g xs[k]) offset n := by
  induction xs generalizing k with
  | nil => cases hk
  | cons x xs ih =>
    rw [List.flatMap_cons]
    cases k with
    | zero =>
      rw [Nat.mul_zero, Nat.zero_add]
      exact field_append_left (by rwa [h]) _
    | succ k =>
      have place : w * (k + 1) + offset = w + (w * k + offset) := by ring
      rw [place, field_append_right (h x), ih (Nat.lt_of_succ_lt_succ hk)]
      rfl

/-! ## Layouts -/

/-- The bytes of fields, each given by its length and its value. -/
def layout (fields : List (Nat × Nat)) : List Byte := fields.flatMap fun f => leBytes f.1 f.2

/-- The length of the fields before the k-th. -/
def layoutOffset (fields : List (Nat × Nat)) (k : Nat) : Nat := ((fields.take k).map (·.1)).sum

theorem layout_length (fields : List (Nat × Nat)) : (layout fields).length = (fields.map (·.1)).sum := by
  induction fields with
  | nil => rfl
  | cons f fields ih =>
    rw [layout, List.flatMap_cons, List.length_append, leBytes_length]
    exact congrArg (f.1 + ·) ih

/-- Each field holds its value, at the offset that the fields before it leave. -/
theorem layout_holds {fields : List (Nat × Nat)} (k : Nat) {offset n v : Nat} (at_ : fields[k]? = some (n, v) := by rfl)
    (place : layoutOffset fields k = offset := by simp [layoutOffset]) : Holds (layout fields) offset n v := by
  subst place
  unfold Holds
  induction fields generalizing k with
  | nil => cases at_
  | cons f fields ih =>
    rw [layout, List.flatMap_cons]
    cases k with
    | zero =>
      cases at_
      have first := field_append_left (xs := leBytes n v) (offset := 0) (n := n)
        (by rw [leBytes_length, Nat.zero_add]) (layout fields)
      exact first.trans (field_leBytes ..)
    | succ k =>
      have later := field_append_right (leBytes_length f.1 f.2) (layout fields) (layoutOffset fields k) n
      exact later.trans (ih k at_)

theorem layout_append (fields fields' : List (Nat × Nat)) : layout (fields ++ fields') = layout fields ++ layout fields' :=
  List.flatMap_append

theorem padTo_layout (n : Nat) (fields : List (Nat × Nat)) :
    padTo n (layout fields) = layout (fields ++ [(n - (fields.map (·.1)).sum, 0)]) := by
  rw [padTo, layout_length, layout_append, ← leBytes_zero]
  exact congrArg (layout fields ++ ·) (List.append_nil _).symm

theorem Timecode.bytes_eq (x : Timecode) : x.bytes = layout [(1, x.ff), (1, x.ss), (1, x.mm), (1, x.hh)] := rfl

/-! ## The measurement block (11.3) -/

theorem MeasBlock.bytes_eq (b : MeasBlock) (l : LineId) :
    b.bytes l = layout [(4, b.totals.fill.toNat), (4, b.totals.audio.toNat), (4, b.totals.live.toNat),
      (4, b.totals.skip.toNat), (4, b.totals.label.toNat), (4, b.totals.file.toNat),
      (4, b.totals.underruns.toNat), (4, b.totals.violations.toNat), (4, b.totals.crcErrors.toNat),
      (4, b.totals.losFrames.toNat), (4, b.totals.goodFrames.toNat), (4, b.interval.toNat), (4, b.length),
      (4, l.val), (4, b.audioCount.toNat), (4, 0)] := by
  simp [MeasBlock.bytes, layout, padTo, leBytes_length, leBytes_zero]

theorem MeasBlock.bytes_holds (b : MeasBlock) (l : LineId) :
    let bs := b.bytes l
    bs.length = 64 ∧ Holds bs 0 4 b.totals.fill.toNat ∧ Holds bs 4 4 b.totals.audio.toNat ∧
    Holds bs 8 4 b.totals.live.toNat ∧ Holds bs 12 4 b.totals.skip.toNat ∧ Holds bs 16 4 b.totals.label.toNat ∧
    Holds bs 20 4 b.totals.file.toNat ∧ Holds bs 24 4 b.totals.underruns.toNat ∧
    Holds bs 28 4 b.totals.violations.toNat ∧ Holds bs 32 4 b.totals.crcErrors.toNat ∧
    Holds bs 36 4 b.totals.losFrames.toNat ∧ Holds bs 40 4 b.totals.goodFrames.toNat ∧
    Holds bs 44 4 b.interval.toNat ∧ Holds bs 48 4 b.length ∧ Holds bs 52 4 l.val ∧
    Holds bs 56 4 b.audioCount.toNat ∧ Holds bs 60 4 0 := by
  intro bs
  have eq : bs = layout _ := b.bytes_eq l
  clear_value bs
  subst eq
  refine ⟨?_, layout_holds 0, layout_holds 1, layout_holds 2, layout_holds 3, layout_holds 4,
    layout_holds 5, layout_holds 6, layout_holds 7, layout_holds 8, layout_holds 9, layout_holds 10,
    layout_holds 11, layout_holds 12, layout_holds 13, layout_holds 14, layout_holds 15⟩
  simp [layout_length]

end Sys2Proof.Machine
end

section
/-! SUPPORT. What one acceptance grants of the part's own requests, and what a cancelled write does (R17, R18). -/

set_option Elab.async false

namespace Sys2Proof.Machine

variable {s t u : State}

/-! ## What stays at the memory port -/

/-- Of the path unit nothing but the requesters' queues differs. -/
def QueuesOnly (s t : State) : Prop := t.path = { s.path with queues := t.path.queues }

theorem QueuesOnly.of_path (h : t.path = s.path) : QueuesOnly s t := by
  unfold QueuesOnly
  rw [h]

theorem QueuesOnly.trans (h : QueuesOnly s t) (k : QueuesOnly t u) : QueuesOnly s u := by
  unfold QueuesOnly at *
  rw [k, h]

theorem notePresented_path (m : Made) (s : State) : (notePresented m s).path = s.path := by
  rw [notePresented_eq]

theorem presentNext_queuesOnly (q : Fin 8) (s : State) : QueuesOnly s (presentNext q s) := by
  rcases presentNext_cases q s with same | ⟨m, rest, -, -, -, ⟨r, -, presented⟩ | ⟨-, dropped⟩⟩
  · rw [same]
    exact .of_path rfl
  · rw [presented]
    exact QueuesOnly.trans (t := s.setQueue q _) rfl (.of_path (notePresented_path ..))
  · rw [dropped]
    rfl

theorem makeRequest_queuesOnly (q : Fin 8) (m : Made) (s : State) : QueuesOnly s (makeRequest q m s) :=
  congrArg State.path (makeRequest_eq q m s)

theorem fetchCommand_queuesOnly (s : State) : QueuesOnly s (fetchCommand s) := by
  unfold fetchCommand
  dsimp only
  split
  · exact makeRequest_queuesOnly ..
  · exact .of_path rfl

theorem cancelled_queuesOnly (p : Purpose) (s : State) : QueuesOnly s (cancelled p s) := by
  cases p
  case measWrite serial l again =>
    change QueuesOnly s (blockCancelled ..)
    unfold blockCancelled
    split
    · exact makeRequest_queuesOnly ..
    · exact .of_path (blockDone_changes ..).path
  case completionWrite => exact fetchCommand_queuesOnly _
  case labelWrite => exact .of_path (labelLanded_changes _).path
  all_goals exact .of_path rfl

theorem cancelWaiting_queuesOnly (q : Fin 8) (w : Waiting) (s : State) :
    QueuesOnly (passTurn q s) (cancelWaiting q w s) :=
  (cancelled_queuesOnly ..).trans (presentNext_queuesOnly ..)

/-! ## Writes where R18 lets them be -/

theorem insideOwned_iff (k : WindowKind) (r : MemRequest) :
    s.insideOwned k r = true ↔ ∃ w, s.ownedWindow k = some w ∧ r.within w.first w.limit := by
  unfold State.insideOwned MemRequest.within
  cases s.ownedWindow k <;> simp

theorem onCompletionFields_of_onCompletion {r : MemRequest} (h : s.onCompletion r = true) :
    OnCompletionFields s r := by
  obtain ⟨addr, burst⟩ := r
  unfold State.onCompletion at h
  obtain ⟨k, slot, field⟩ := List.any_eq_true.mp h
  rw [Bool.and_eq_true, beq_iff_eq] at field
  obtain ⟨place, enables⟩ := field
  refine ⟨k, List.mem_range.mp slot, place, ?_⟩
  dsimp only at enables ⊢
  split at enables
  next b => exact ⟨b, rfl, eq_of_beq enables⟩
  next => cases enables

/-- A write that passes the check of R18 is where R18 lets the part write. -/
theorem writeAllowed_of_passesCheck {p : Purpose} {r : MemRequest} (h : s.passesCheck p r = true) :
    (∃ n, r.burst = .read n) ∨ WriteAllowed s r := by
  have inside (k : WindowKind) (owned : k = .busOut ∨ k = .label ∨ k = .report ∨ k = .meas)
      (h : s.insideOwned k r = true) : WriteAllowed s r :=
    have ⟨w, window, within⟩ := (insideOwned_iff k r).mp h
    .inr ⟨k, w, owned, window, within⟩
  unfold State.passesCheck at h
  split at h
  next n burst => exact .inl ⟨n, burst⟩
  next beats burst =>
    right
    cases p
    case completionWrite => exact .inl (onCompletionFields_of_onCompletion h)
    case reportPost => exact inside .report (by simp) h
    case busWrite => exact inside .busOut (by simp) h
    case labelWrite => exact inside .label (by simp) h
    case measWrite => exact inside .meas (by simp) h
    all_goals cases h

/-! ## One grant -/

theorem freeTagFrom_eq {pick : BitVec 5} {k : Fin 32} (h : s.freeTagFrom pick = some k) :
    s.path.pool[k] = none := Option.isNone_iff_eq_none.mp (List.find?_some h :)

/-- While a tag is free one is found. -/
theorem freeTagFrom_of_free {k : Fin 32} (pick : BitVec 5) (free : s.path.pool[k] = none) :
    ∃ j, s.freeTagFrom pick = some j := by
  rw [← Option.isSome_iff_exists, State.freeTagFrom, List.find?_isSome]
  refine ⟨k, List.mem_map.mpr ⟨k - pick.toFin, List.mem_finRange _, add_sub_cancel ..⟩, ?_⟩
  rw [free]
  rfl

theorem grantInternal_of_issues {q : Fin 8} {pick : BitVec 5} {w : Waiting} {k : Fin 32}
    (waiting : (s.path.queues[q]).waiting = some w) (free : s.freeTagFrom pick = some k)
    (h : s.issues w = true) : grantInternal q pick s = (issue q k w s, false) := by
  simp only [grantInternal, waiting, free, h, if_true]

theorem grantInternal_of_cancelled {q : Fin 8} {pick : BitVec 5} {w : Waiting} {k : Fin 32}
    (waiting : (s.path.queues[q]).waiting = some w) (free : s.freeTagFrom pick = some k)
    (h : s.issues w = false) : grantInternal q pick s = (cancelWaiting q w s, true) := by
  simp only [grantInternal, waiting, free, h, Bool.false_eq_true, if_false]

/-- A grant issues a request, or it cancels one and the arbiter grants again. -/
theorem grantInternal_cases (q : Fin 8) (pick : BitVec 5) (s : State) :
    (∃ w k, (s.path.queues[q]).waiting = some w ∧ s.freeTagFrom pick = some k ∧
      (s.issues w = true ∧ grantInternal q pick s = (issue q k w s, false) ∨
        s.issues w = false ∧ grantInternal q pick s = (cancelWaiting q w s, true))) ∨
    grantInternal q pick s = (s, false) := by
  unfold grantInternal
  split
  next w k waiting free =>
    refine .inl ⟨w, k, waiting, free, ?_⟩
    cases issues : s.issues w
    · exact .inr ⟨rfl, rfl⟩
    · exact .inl ⟨rfl, rfl⟩
  next => exact .inr rfl

theorem issues_iff (w : Waiting) : s.issues w = true ↔ w.stale = false ∧ s.passesCheck w.purpose w.request = true := by
  simp [State.issues]

/-- The turn goes to an internal request: nothing is forwarded before it, or the lockout count is at its limit. -/
theorem arbitrate_of_internal {q : Fin 8} (pick : BitVec 5) (n : Nat) (turn : s.nextInternal = some q)
    (h : s.path.forward = [] ∨ s.path.lockout = 16) :
    arbitrate pick (n + 1) s =
      if (grantInternal q pick s).2 then arbitrate pick n (grantInternal q pick s).1
      else (grantInternal q pick s).1 := by
  have again : (match grantInternal q pick s with
        | (s', true) => arbitrate pick n s'
        | (s', false) => s') =
      if (grantInternal q pick s).2 then arbitrate pick n (grantInternal q pick s).1
      else (grantInternal q pick s).1 := by
    split <;> rename_i granted <;> rw [granted] <;> rfl
  rw [arbitrate, turn]
  cases forward : s.path.forward with
  | nil => exact again
  | cons r rest =>
    have limit : s.path.lockout = Config.lockoutLimit := h.resolve_left (by rw [forward]; exact List.cons_ne_nil _ _)
    dsimp only
    rw [if_pos limit]
    exact again

/-- The first eligible requester from the turn position on has the turn. -/
theorem nextInternal_of_first {d : Fin 8} (own : s.eligible (s.path.turn + d) = true)
    (first : ∀ e : Fin 8, e < d → s.eligible (s.path.turn + e) = false) :
    s.nextInternal = some (s.path.turn + d) := by
  rw [State.nextInternal, List.find?_eq_some_iff_getElem]
  refine ⟨own, d.val, by simp, by simp, fun j before => ?_⟩
  have earlier := first ⟨j, before.trans d.isLt⟩ before
  simpa using earlier

/-! ## What one acceptance puts on the port (R18) -/

/-- What an acceptance has put on the port, with what it leaves of the forward queue. -/
def PutOut (s t : State) : Prop :=
  ∀ x, t.path.memoryOut = some x →
    (∃ r rest, s.path.forward = r :: rest ∧ x.tag = r.tag.setWidth 8 ∧
      x.request = { addr := r.addr, burst := r.burst } ∧ t.path.forward = rest) ∨
    (64 ≤ x.tag.toNat ∧ x.tag.toNat ≤ 95 ∧ t.path.forward = s.path.forward ∧ s.path.stopped = false ∧
      ((∃ n, x.request.burst = .read n) ∨ WriteAllowed s x.request))

/-- Only the windows, the control page, the forward queue and the stop of a state bear on what it may put out. -/
theorem PutOut.of_queuesOnly {s' : State} (path : s'.path.windows = s.path.windows) (cpb : s'.path.cpb = s.path.cpb)
    (forward : s'.path.forward = s.path.forward) (stopped : s'.path.stopped = s.path.stopped) (h : PutOut s' t) :
    PutOut s t := by
  have owned (k : WindowKind) : s'.ownedWindow k = s.ownedWindow k := by
    unfold State.ownedWindow
    rw [path]
  have page : s'.controlPage = s.controlPage := by
    unfold State.controlPage
    rw [cpb]
  intro x out
  have put := h x out
  rw [forward, stopped] at put
  simp only [WriteAllowed, OnCompletionFields, owned, page] at put ⊢
  exact put

theorem issue_path (q : Fin 8) (k : Fin 32) (w : Waiting) (s : State) :
    (issue q k w s).path = { (passTurn q s).path with
      pool := s.path.pool.set k (some { purpose := w.purpose, request := w.request, stale := false })
      memoryOut := some { tag := BitVec.ofNat 8 (64 + k.val), request := w.request }
      queues := (issue q k w s).path.queues } := presentNext_queuesOnly ..

theorem issue_putOut {q : Fin 8} (k : Fin 32) {w : Waiting} (running : s.path.stopped = false)
    (h : s.issues w = true) : PutOut s (issue q k w s) := by
  obtain ⟨-, passes⟩ := (issues_iff w).mp h
  intro x out
  rw [issue_path] at out
  cases out
  have pool := k.isLt
  have tag : (BitVec.ofNat 8 (64 + k.val)).toNat = 64 + k.val := by
    rw [BitVec.toNat_ofNat]
    omega
  refine .inr ⟨?_, ?_, ?_, running, writeAllowed_of_passesCheck passes⟩
  · change 64 ≤ (BitVec.ofNat 8 (64 + k.val)).toNat
    omega
  · change (BitVec.ofNat 8 (64 + k.val)).toNat ≤ 95
    omega
  · rw [issue_path]
    rfl

theorem arbitrate_putOut (pick : BitVec 5) (n : Nat) (s : State) (clear : s.path.memoryOut = none) :
    PutOut s (arbitrate pick n s) := by
  have idle : PutOut s s := fun x out => by
    rw [clear] at out
    cases out
  induction n generalizing s with
  | zero => exact idle
  | succ n ih =>
    have forwarded {r : Request} {rest : List Request} (l : Nat) (forward : s.path.forward = r :: rest) :
        PutOut s (setLockout l (grantForwarded r rest s)) := fun x out => by
      cases out
      exact .inl ⟨r, rest, forward, rfl, rfl, rfl⟩
    cases turn : s.nextInternal with
    | none =>
      have none' := nextInternal_eq_none_iff.mp turn
      cases forward : s.path.forward with
      | nil =>
        rw [arbitrate_of_idle pick n forward none']
        exact idle
      | cons r rest =>
        rw [arbitrate_of_forwarded pick n forward (.inl none')]
        exact forwarded _ forward
    | some q =>
      by_cases h : s.path.forward = [] ∨ s.path.lockout = 16
      · rw [arbitrate_of_internal pick n turn h]
        obtain ⟨running, -, -⟩ := (eligible_iff q).mp (nextInternal_eligible turn)
        rcases grantInternal_cases q pick s with ⟨w, k, waiting, free, ⟨issues, granted⟩ | ⟨-, granted⟩⟩ | granted
        · rw [granted]
          exact issue_putOut k running issues
        · rw [granted]
          have path : (cancelWaiting q w s).path = { (passTurn q s).path with
            queues := (cancelWaiting q w s).path.queues } := cancelWaiting_queuesOnly ..
          have clear' : (cancelWaiting q w s).path.memoryOut = none := by
            rw [path]
            exact clear
          have idle' : PutOut (cancelWaiting q w s) (cancelWaiting q w s) := fun x out => by
            rw [clear'] at out
            cases out
          exact .of_queuesOnly (by rw [path]; rfl) (by rw [path]; rfl) (by rw [path]; rfl) (by rw [path]; rfl)
            (ih _ clear' idle')
        · rw [granted]
          exact idle
      · obtain ⟨waits, below⟩ := not_or.mp h
        obtain ⟨r, rest, forward⟩ := List.exists_cons_of_ne_nil waits
        rw [arbitrate_of_forwarded pick n forward (.inr below)]
        exact forwarded _ forward

/-! ## The requester's next request -/

theorem presentNext_of_waiting {q : Fin 8} {w : Waiting} (waiting : (s.path.queues[q]).waiting = some w) :
    presentNext q s = s := by
  simp only [presentNext, waiting]

theorem presentNext_of_none_made {q : Fin 8} (later : (s.path.queues[q]).later = []) : presentNext q s = s := by
  unfold presentNext
  dsimp only
  rw [later]
  split
  next made => cases made
  next => rfl

theorem presentNext_of_made {q : Fin 8} {m : Made} {rest : List Made} {r : MemRequest}
    (waiting : (s.path.queues[q]).waiting = none) (later : (s.path.queues[q]).later = m :: rest)
    (normal : s.isNormal = true) (request : s.requestOf m = some r) :
    ((presentNext q s).path.queues[q]) =
      { waiting := some { purpose := m.purpose, request := r, ahead := s.path.forward.length, stale := false }
        later := rest } := by
  have presented : presentNext q s = notePresented m (s.setQueue q
      { waiting := some { purpose := m.purpose, request := r, ahead := s.path.forward.length, stale := false }
        later := rest }) := by
    simp only [presentNext, waiting, later, normal, request, if_true]
  rw [presented, notePresented_path]
  exact setQueue_queues_same ..

theorem presentNext_queue_other {q p : Fin 8} (other : p ≠ q) (s : State) :
    (presentNext q s).path.queues[p] = s.path.queues[p] := by
  rcases presentNext_cases q s with same | ⟨m, rest, -, -, -, ⟨r, -, presented⟩ | ⟨-, dropped⟩⟩
  · rw [same]
  · rw [presented, notePresented_path]
    exact (getElem_set_fin ..).trans (if_neg other)
  · rw [dropped]
    exact (getElem_set_fin ..).trans (if_neg other)

theorem passTurn_queue_same (q : Fin 8) (s : State) :
    (passTurn q s).path.queues[q] = { s.path.queues[q] with waiting := none } := setQueue_queues_same ..

theorem passTurn_queue_other {q p : Fin 8} (other : p ≠ q) (s : State) :
    (passTurn q s).path.queues[p] = s.path.queues[p] := (getElem_set_fin ..).trans (if_neg other)

/-- A bus output write takes its address and contents when it is presented (R98). -/
theorem requestOf_busWrite {m : Made} {frame : Count32} {j : Fin 32} {v : WindowEntry} {e : BusEntry}
    (made : m.fixed = none) (purpose : m.purpose = .busWrite frame j) (window : s.ownedWindow .busOut = some v)
    (queued : s.mixer.busQueue.find? (fun y => y.frame == frame) = some e) :
    s.requestOf m = some (e.request v j) := by
  simp [State.requestOf, made, purpose, window, queued]

/-- A measurement write takes its address and the line's block when it is presented (R209, R210). -/
theorem requestOf_measWrite {m : Made} {serial : Nat} {l : LineId} {again : Bool} {v : WindowEntry}
    (made : m.fixed = none) (purpose : m.purpose = .measWrite serial l again)
    (window : s.ownedWindow .meas = some v) :
    s.requestOf m = some
      { addr := beatOf (v.first + 64 * l.val), burst := fullWrite ((s.fault.buffer[l]).bytes l) } := by
  simp [State.requestOf, made, purpose, window]

/-! ## Reactions to a cancelled write (R34, R99, R122, R125, R211) -/

/-- Every record left holds the ring done flag it held. -/
structure RecordsKeepRing (s t : State) : Prop where
  held : ∀ (j : Fin 32) (c' : Clip), t.label.clips[j] = some c' → ∃ c, s.label.clips[j] = some c ∧
    c'.closing.map (·.ringDone) = c.closing.map (·.ringDone)

theorem RecordsKeepRing.of_clips (h : t.label.clips = s.label.clips) : RecordsKeepRing s t where
  held j c' held := ⟨c', by rwa [h] at held, rfl⟩

theorem RecordsKeepRing.trans (h : RecordsKeepRing s t) (k : RecordsKeepRing t u) : RecordsKeepRing s u where
  held j c'' held :=
    have ⟨c', held', same'⟩ := k.held j c'' held
    have ⟨c, held, same⟩ := h.held j c' held'
    ⟨c, held, same'.trans same⟩

theorem RecordsKeepRing.kept (h : RecordsKeepRing s t) : RingDoneKept s t := by
  intro j c c' x x' held closed held' closed'
  obtain ⟨d, old, same⟩ := h.held j c' held'
  rw [held, Option.some.injEq] at old
  subst old
  rw [closed, closed'] at same
  exact Option.some.inj same

/-- A record's place freed, or its record replaced by one with the same ring done flag. -/
theorem RecordsKeepRing.of_set {i : Fin 32} {x : Option Clip} (clips : t.label.clips = s.label.clips.set i x)
    (h : ∀ c', x = some c' → ∃ c, s.label.clips[i] = some c ∧
      c'.closing.map (·.ringDone) = c.closing.map (·.ringDone)) : RecordsKeepRing s t where
  held j c' held := by
    rw [clips, getElem_set_fin] at held
    split at held
    next own =>
      subst own
      exact h c' held
    next => exact ⟨c', held, rfl⟩

theorem dropBadClip_label (i : Fin 32) (s : State) : (dropBadClip i s).label =
    { (freeClip i s).label with
      inFlight := if s.label.inFlight = some (some i) then some none else s.label.inFlight } := by
  unfold dropBadClip
  dsimp only
  rw [raiseFault_eq]
  rfl

theorem dropBadClip_recordsKeepRing (i : Fin 32) (s : State) : RecordsKeepRing s (dropBadClip i s) :=
  .of_set (i := i) (x := none) (by rw [dropBadClip_label]; rfl) (fun _ e => by cases e)

theorem markPosted_recordsKeepRing (i : Fin 32) {f : Closing → Closing} (h : ∀ k, (f k).ringDone = k.ringDone)
    (s : State) : RecordsKeepRing s (markPosted i f s) := by
  unfold markPosted
  split
  next c held =>
    dsimp only
    split
    · exact .of_set (i := i) (x := none) rfl (fun _ e => by cases e)
    · refine .of_set (i := i) (x := some (c.mapClosing f)) rfl fun c' e => ⟨c, held, ?_⟩
      cases e
      simp [Clip.mapClosing, Option.map_map, Function.comp_def, h]
  next => exact .of_clips rfl

/-- One uplink decision drops a bad record, copies one or marks one. -/
theorem uplinkOnce_induction {motive : State → State → Prop} (refl : ∀ s, motive s s)
    (trans : ∀ {s t u}, motive s t → motive t u → motive s u) (dropped : ∀ i s, motive s (dropBadClip i s))
    (marked : ∀ i s, motive s (markPosted i (fun k => { k with uplinkDone := true }) s))
    (copied : ∀ b s, motive s (s.setLabel { s.label with uplink := s.label.uplink ++ [b] })) (s : State) :
    motive s (uplinkOnce s).1 := by
  unfold uplinkOnce
  split
  · exact refl _
  · split
    · exact refl _
    · split
      · exact dropped ..
      · split
        · exact refl _
        · split
          · split
            · exact trans (copied _ s) (marked ..)
            · exact refl _
          · exact marked ..

theorem uplinkSettle_recordsKeepRing (s : State) : RecordsKeepRing s (uplinkSettle s) := by
  unfold uplinkSettle
  split
  · exact .of_clips rfl
  · exact settle_induction _ (fun _ => .of_clips rfl) (uplinkOnce_induction (fun _ => .of_clips rfl) .trans
      dropBadClip_recordsKeepRing (fun i => markPosted_recordsKeepRing i fun _ => rfl) fun _ _ => .of_clips rfl)
      .trans ..

theorem ringSettle_of_window (window : (s.ownedWindow .label).isSome = true) : ringSettle s = s := by
  unfold ringSettle
  rw [if_pos window, ite_self]

/-- With a LABEL window applied the ring decides nothing at once (R122). -/
theorem postSettle_recordsKeepRing (window : (s.ownedWindow .label).isSome = true) :
    RecordsKeepRing s (postSettle s) := by
  rw [postSettle, ringSettle_of_window window]
  exact uplinkSettle_recordsKeepRing s

/-- With no label write in flight none comes to be in flight. -/
structure NoneTakesOff (s t : State) : Prop where
  none : s.label.inFlight = none → t.label.inFlight = none

theorem NoneTakesOff.of_inFlight (h : t.label.inFlight = s.label.inFlight) : NoneTakesOff s t where
  none := h.trans

theorem NoneTakesOff.trans (h : NoneTakesOff s t) (k : NoneTakesOff t u) : NoneTakesOff s u where
  none := k.none ∘ h.none

theorem dropBadClip_noneTakesOff (i : Fin 32) (s : State) : NoneTakesOff s (dropBadClip i s) where
  none landed := by simp [dropBadClip_label, landed]

theorem markPosted_inFlight (i : Fin 32) (f : Closing → Closing) (s : State) :
    (markPosted i f s).label.inFlight = s.label.inFlight := by
  unfold markPosted
  split
  · dsimp only
    split <;> rfl
  · rfl

theorem ringOnce_noneTakesOff (s : State) : NoneTakesOff s (ringOnce s).1 := by
  unfold ringOnce
  split
  · exact .of_inFlight rfl
  · split
    · exact .of_inFlight rfl
    · split
      · exact dropBadClip_noneTakesOff ..
      · split
        · exact .of_inFlight (markPosted_inFlight ..)
        · exact .of_inFlight rfl

theorem uplinkSettle_noneTakesOff (s : State) : NoneTakesOff s (uplinkSettle s) := by
  unfold uplinkSettle
  split
  · exact .of_inFlight rfl
  · exact settle_induction _ (fun _ => .of_inFlight rfl) (uplinkOnce_induction (fun _ => .of_inFlight rfl) .trans
      dropBadClip_noneTakesOff (fun i s => .of_inFlight (markPosted_inFlight ..)) fun _ _ => .of_inFlight rfl)
      .trans ..

theorem postSettle_noneTakesOff (s : State) : NoneTakesOff s (postSettle s) := by
  refine NoneTakesOff.trans ?_ (uplinkSettle_noneTakesOff _)
  unfold ringSettle
  split
  · exact .of_inFlight rfl
  · split
    · exact .of_inFlight rfl
    · exact settle_induction _ (fun _ => .of_inFlight rfl) ringOnce_noneTakesOff .trans ..

theorem labelLanded_inFlight (s : State) : (labelLanded s).label.inFlight = none :=
  (postSettle_noneTakesOff _).none rfl

theorem labelLanded_ringDoneKept (window : (s.ownedWindow .label).isSome = true) :
    RingDoneKept s (labelLanded s) :=
  (RecordsKeepRing.trans (t := s.setLabel { s.label with inFlight := none }) (.of_clips rfl)
    (postSettle_recordsKeepRing window)).kept

theorem labelLanded_settled (s : State) : LabelSettled s (labelLanded s) :=
  LabelSettled.trans (t := s.setLabel _) rfl (postSettle_settled _)

/-- The interval ends with no write left open are forgotten, and what they offer is no part of the fault unit. -/
theorem settleIntervals_fault (s : State) : (settleIntervals s).fault =
    { s.fault with writes := s.fault.writes.filter fun g => g.opened != 0 } := by
  have offered (gs : List IntervalWrites) (s : State) : (gs.foldl settleInterval s).fault = s.fault := by
    induction gs generalizing s with
    | nil => rfl
    | cons g gs ih =>
      rw [List.foldl_cons, ih]
      unfold settleInterval
      split
      · exact (offer_changes ..).fault
      · rfl
  unfold settleIntervals
  dsimp only [State.setFault]
  rw [offered]

theorem blockDone_writes (serial : Nat) (s : State) : (blockDone serial s).fault.writes =
    (s.fault.writes.map fun g => if g.serial = serial then { g with opened := g.opened - 1 } else g).filter
      fun g => g.opened ≠ 0 := by
  unfold blockDone
  rw [settleIntervals_fault]
  simp [State.setFault, bne]
  rfl

/-- A cancelled measurement write is presented again at once, when nothing of the fault unit waits (R211). -/
theorem blockCancelled_queue {serial : Nat} {l : LineId} {again : Bool} {v : WindowEntry} (normal : s.isNormal = true)
    (waiting : (s.path.queues[faultQueue]).waiting = none) (later : (s.path.queues[faultQueue]).later = [])
    (window : s.ownedWindow .meas = some v) :
    (blockCancelled serial l again s).path.queues[faultQueue] =
      { waiting := some
          { purpose := .measWrite serial l again
            request := { addr := beatOf (v.first + 64 * l.val), burst := fullWrite ((s.fault.buffer[l]).bytes l) }
            ahead := s.path.forward.length
            stale := false }
        later := [] } := by
  have applied : (s.ownedWindow .meas).isSome = true := by rw [window]; rfl
  unfold blockCancelled makeRequest
  rw [if_pos applied, if_pos normal]
  dsimp only
  let m : Made := { purpose := .measWrite serial l again, fixed := none }
  let u := s.setQueue faultQueue
    { (s.path.queues[faultQueue]) with later := (s.path.queues[faultQueue]).later ++ [m] }
  have own : u.path.queues[faultQueue] =
    { (s.path.queues[faultQueue]) with later := (s.path.queues[faultQueue]).later ++ [m] } :=
    setQueue_queues_same ..
  exact presentNext_of_made (m := m) (s := u) (by rw [own]; exact waiting) (by rw [own, later]; rfl) normal
    (requestOf_measWrite (s := u) rfl rfl window)

/-! ## A cancelled write at an acceptance (R18) -/

theorem cancelWaiting_changes_turn (q : Fin 8) (w : Waiting) (s : State) :
    (cancelWaiting q w s).path = { s.path with
      turn := q + 1, lockout := 0, queues := (cancelWaiting q w s).path.queues } := cancelWaiting_queuesOnly ..

/-- When the requester has no later request and makes none, nothing of it waits after a cancelled write. -/
theorem cancelWaiting_of_quiet {q : Fin 8} {w : Waiting} (later : (s.path.queues[q]).later = [])
    (path : (cancelled w.purpose (passTurn q s)).path = (passTurn q s).path) :
    cancelWaiting q w s = cancelled w.purpose (passTurn q s) ∧
      ((cancelWaiting q w s).path.queues[q]).waiting = none := by
  have own : (cancelled w.purpose (passTurn q s)).path.queues[q] = { s.path.queues[q] with waiting := none } := by
    rw [path]
    exact passTurn_queue_same q s
  have same : cancelWaiting q w s = cancelled w.purpose (passTurn q s) :=
    presentNext_of_none_made (by rw [own]; exact later)
  exact ⟨same, by rw [same, own]⟩

/-- A cancelled measurement write is made again for the new window, or given up with the window (R211). -/
theorem cancelWaiting_of_measWrite {w : Waiting} {serial : Nat} {l : LineId} {again : Bool}
    (purpose : w.purpose = .measWrite serial l again) (normal : s.isNormal = true)
    (later : (s.path.queues[faultQueue]).later = []) :
    (∀ v, s.ownedWindow .meas = some v →
      ((cancelWaiting faultQueue w s).path.queues[faultQueue]).waiting = some
        { purpose := .measWrite serial l again
          request := { addr := beatOf (v.first + 64 * l.val), burst := fullWrite ((s.fault.buffer[l]).bytes l) }
          ahead := s.path.forward.length
          stale := false }) ∧
    (s.ownedWindow .meas = none →
      ((cancelWaiting faultQueue w s).path.queues[faultQueue]).waiting = none ∧
      (cancelWaiting faultQueue w s).fault.writes =
        (s.fault.writes.map fun g => if g.serial = serial then { g with opened := g.opened - 1 } else g).filter
          fun g => g.opened ≠ 0) := by
  let p := passTurn faultQueue s
  have queue : p.path.queues[faultQueue] = { s.path.queues[faultQueue] with waiting := none } :=
    passTurn_queue_same ..
  have reaction : cancelled w.purpose p = blockCancelled serial l again p := by rw [purpose]; rfl
  have cancel : cancelWaiting faultQueue w s = presentNext faultQueue (blockCancelled serial l again p) :=
    congrArg (presentNext faultQueue) reaction
  refine ⟨fun v window => ?_, fun gone => ?_⟩
  · have own := blockCancelled_queue (s := p) (serial := serial) (l := l) (again := again) normal
      (by rw [queue]) (by rw [queue]; exact later) window
    rw [cancel, presentNext_of_waiting (congrArg RequestQueue.waiting own), own]
    rfl
  · have done : blockCancelled serial l again p = blockDone serial p := by
      unfold blockCancelled
      rw [show p.ownedWindow .meas = none from gone]
      rfl
    obtain ⟨same, quiet⟩ := cancelWaiting_of_quiet (w := w) later (by
      rw [reaction, done]
      exact (blockDone_changes ..).path)
    refine ⟨quiet, ?_⟩
    rw [same, reaction, done, blockDone_writes]
    rfl

/-- The grants after the first do not depend on how many may follow, when a request is forwarded then or every
waiting one is issued. -/
theorem arbitrate_of_no_cancel (pick : BitVec 5) (n m : Nat)
    (h : s.path.forward ≠ [] ∧ s.path.lockout ≠ 16 ∨
      ∀ (p : Fin 8) (v : Waiting), (s.path.queues[p]).waiting = some v → s.issues v = true) :
    arbitrate pick (n + 1) s = arbitrate pick (m + 1) s := by
  cases turn : s.nextInternal with
  | none =>
    have none' := nextInternal_eq_none_iff.mp turn
    cases forward : s.path.forward with
    | nil => rw [arbitrate_of_idle pick n forward none', arbitrate_of_idle pick m forward none']
    | cons r rest =>
      rw [arbitrate_of_forwarded pick n forward (.inl none'), arbitrate_of_forwarded pick m forward (.inl none')]
  | some q =>
    by_cases own : s.path.forward = [] ∨ s.path.lockout = 16
    · have all := h.resolve_left fun ⟨waits, below⟩ => own.elim waits below
      have once : (grantInternal q pick s).2 = false := by
        rcases grantInternal_cases q pick s with ⟨w, k, waiting, -, ⟨-, granted⟩ | ⟨stays, -⟩⟩ | granted
        · rw [granted]
        · rw [all q w waiting] at stays
          cases stays
        · rw [granted]
      rw [arbitrate_of_internal pick n turn own, arbitrate_of_internal pick m turn own, once]
      rfl
    · obtain ⟨waits, below⟩ := not_or.mp own
      obtain ⟨r, rest, forward⟩ := List.exists_cons_of_ne_nil waits
      rw [arbitrate_of_forwarded pick n forward (.inr below), arbitrate_of_forwarded pick m forward (.inr below)]

/-- One acceptance makes at least two grants where it needs them. -/
theorem exec_memoryPortAcceptance_two (pick : BitVec 5) (s : State) :
    ∃ n, exec (.memoryPortAcceptance pick) s = .next (arbitrate pick (n + 2) s.cleared) := by
  refine ⟨14 + (s.path.queues.toList.map fun x => x.later.length).sum, ?_⟩
  have bound : s.grantBound = 14 + (s.path.queues.toList.map fun x => x.later.length).sum + 2 := by
    unfold State.grantBound
    omega
  rw [← bound]
  rfl

end Sys2Proof.Machine

open Sys2Proof Sys2Proof.Machine

/-- Settles O59: by induction over the grants of an acceptance; a cancelled write leaves the windows, the forward
queue and the port as they were. -/
theorem originatedWritesStayInside : Obligations.OriginatedWritesStayInside := by
  intro pick s t x run out
  cases run
  exact PutOut.of_queuesOnly (s' := s.cleared) rfl rfl rfl rfl (arbitrate_putOut _ _ s.cleared rfl) x out

/-- Settles O14: a granted request is issued or cancelled, and a cancelled write has its requester's reaction. -/
theorem internalRequestIsGranted : Obligations.InternalRequestIsGranted := by
  intro pick s d w q passes turn own first waiting
  have next : s.cleared.nextInternal = some q := nextInternal_of_first (s := s.cleared) own first
  obtain ⟨-, ⟨j, open'⟩, -⟩ := (eligible_iff q).mp own
  obtain ⟨k, free⟩ := freeTagFrom_of_free (s := s.cleared) pick open'
  refine ⟨fun issues => ?issued, fun cancels => ?cancelled, fun b l => b.bytes_holds l⟩
  case issued =>
    have granted := grantInternal_of_issues (s := s.cleared) waiting free ((issues_iff w).mpr issues)
    obtain ⟨n, run⟩ := exec_memoryPortAcceptance pick s
    rw [arbitrate_of_internal (s := s.cleared) pick n next turn, granted] at run
    replace run : exec (.memoryPortAcceptance pick) s = .next (issue q k w s.cleared) := run
    let u := (passTurn q s.cleared).setPath { (passTurn q s.cleared).path with
      pool := s.path.pool.set k (some { purpose := w.purpose, request := w.request, stale := false })
      memoryOut := some { tag := BitVec.ofNat 8 (64 + k.val), request := w.request } }
    have queue : u.path.queues[q] = { s.path.queues[q] with waiting := none } := passTurn_queue_same q s.cleared
    have path := issue_path q k w s.cleared
    refine ⟨_, k, run, freeTagFrom_eq free, ?_, ?_, ?_, ?_, ?_, ?_, ?_, fun p other => ?_, fun alone => ?_,
      fun m rest later normal => ?_, ?_⟩
    · exact congrArg Path.pool path
    · exact congrArg Path.memoryOut path
    · exact congrArg Path.turn path
    · exact congrArg Path.lockout path
    · exact (congrArg Path.forward path).trans rfl
    · exact (congrArg Path.windows path).trans rfl
    · exact (congrArg Path.tags path).trans rfl
    · exact (presentNext_queue_other other u).trans (passTurn_queue_other other s.cleared)
    · have same : presentNext q u = u := presentNext_of_none_made (by rw [queue]; exact alone)
      change (presentNext q u).path.queues[q] = _
      rw [same, queue, ← alone]
    · have presented {r : MemRequest} (request : u.requestOf m = some r) : (issue q k w s.cleared).path.queues[q] = _ :=
        presentNext_of_made (s := u) (by rw [queue]) (by rw [queue]; exact later) normal request
      refine ⟨fun r fixed => presented (requestOf_of_fixed fixed), fun frame j v e made purpose window queued => ?_,
        fun serial l again v made purpose window => ?_⟩
      · exact presented (requestOf_busWrite made purpose window queued)
      · exact presented (requestOf_measWrite made purpose window)
    · have cleared : ChangesOnly [.path, .mixer, .fault] s s.cleared := (State.setPath_changes ..).mono (by decide)
      exact cleared.trans (issue_changes ..)
  case cancelled =>
    have stays : s.cleared.issues w = false := by
      rw [Bool.eq_false_iff]
      exact fun issues => cancels ((issues_iff (s := s.cleared) w).mp issues)
    have granted := grantInternal_of_cancelled (s := s.cleared) waiting free stays
    let t := cancelWaiting q w s.cleared
    have path : t.path = { s.cleared.path with turn := q + 1, lockout := 0, queues := t.path.queues } :=
      cancelWaiting_changes_turn ..
    refine ⟨t, fun again => ?_, ?_, ?_, ?_, ?_, ?_, ?_, ?_, fun later => ?_⟩
    · obtain ⟨n, run⟩ := exec_memoryPortAcceptance_two pick s
      obtain ⟨m, run'⟩ := exec_memoryPortAcceptance pick t
      have clear : t.cleared = t := by
        have out : t.path = { t.path with memoryOut := none } := by rw [path]; rfl
        unfold State.cleared State.setPath
        rw [← out]
      rw [arbitrate_of_internal (s := s.cleared) pick (n + 1) next turn, granted] at run
      rw [run, run', clear]
      refine congrArg _ (arbitrate_of_no_cancel pick n m (again.imp (fun waits => ⟨?_, ?_⟩) fun all p v waits => ?_))
      · rw [path]
        exact waits
      · rw [path]
        exact Nat.zero_ne_add_one _
      · exact (issues_iff v).mpr (all p v waits)
    · rw [path]; rfl
    · rw [path]
    · rw [path]
    · rw [path]; rfl
    · rw [path]; rfl
    · rw [path]; rfl
    · have cleared : ChangesOnly [.path, .command, .report, .mixer, .label, .fault] s s.cleared :=
        (State.setPath_changes ..).mono (by decide)
      exact cleared.trans (cancelWaiting_changes ..)
    · refine ⟨fun again purpose => ?post, fun frame j purpose => ?bus, fun again purpose => ?label,
        fun serial l again purpose fault normal => ?meas⟩
      case post =>
        obtain ⟨same, none⟩ := cancelWaiting_of_quiet (s := s.cleared) (w := w) later (by rw [purpose]; rfl)
        refine ⟨none, ?_⟩
        change (cancelWaiting q w s.cleared).report = _
        rw [same, purpose]
        rfl
      case bus =>
        obtain ⟨same, none⟩ := cancelWaiting_of_quiet (s := s.cleared) (w := w) later (by rw [purpose]; rfl)
        refine ⟨none, ?_⟩
        change (cancelWaiting q w s.cleared).mixer.busQueue = _
        rw [same, purpose]
        simp [cancelled, busWriteDone, BusEntry.finished]
        rfl
      case label =>
        let p := passTurn q s.cleared
        obtain ⟨same, none⟩ := cancelWaiting_of_quiet (s := s.cleared) (w := w) later (by
          rw [purpose]
          exact (labelLanded_changes _).path)
        have landed : t = labelLanded p := same.trans (by rw [purpose]; rfl)
        have settled : LabelSettled p (labelLanded p) := labelLanded_settled p
        refine ⟨none, ?_, ?_, ?_, ?_, fun window => ?_⟩
        · rw [landed, labelLanded_inFlight]
        · rw [landed, settled]; rfl
        · rw [landed, settled]; rfl
        · rw [landed, settled]; rfl
        · rw [landed]
          exact labelLanded_ringDoneKept (s := p) window
      case meas =>
        have later' : (s.path.queues[faultQueue]).later = [] :=
          (congrArg (fun j : Fin 8 => (s.path.queues[j]).later) fault).symm.trans later
        obtain ⟨anew, dropped⟩ := cancelWaiting_of_measWrite (s := s.cleared) purpose normal later'
        have own : t = cancelWaiting faultQueue w s.cleared := congrArg (cancelWaiting · w s.cleared) fault
        rw [own]
        exact ⟨anew, dropped⟩

end

section
/-! SUPPORT. The tables after reset (R19, R63, R86, R102, R128, R150, R176, R198, R213). -/

set_option Elab.async false

namespace Sys2Proof.Machine

/-- The state after RESET with some strap value (R19). -/
def State.resetWith (s : State) (cpb : BitVec 12) : State :=
  { State.reset with path := { Path.reset with cpb := cpb }, pending := s.pending }

theorem exec_reset (cpb : BitVec 12) (s : State) : exec (.reset cpb) s = .next (s.resetWith cpb) := rfl

/-- Every place of a table filled with one value holds it. -/
theorem getElem_replicate_fin {α : Type} {n : Nat} (a : α) (i : Fin n) : (Vector.replicate n a)[i] = a := by simp

theorem line_resetWith (s : State) (cpb : BitVec 12) (l : LineId) : (s.resetWith cpb).line l = Line.reset :=
  getElem_replicate_fin ..

theorem stream_resetWith (s : State) (cpb : BitVec 12) (n : Fin 4) : (s.resetWith cpb).stream n = Stream.reset :=
  getElem_replicate_fin ..

theorem ltx_resetWith (s : State) (cpb : BitVec 12) (l : LineId) : (s.resetWith cpb).ltx l = .space := by
  rw [State.ltx, line_resetWith]
  rfl

theorem openFrame_resetWith (s : State) (cpb : BitVec 12) (next : Bool) :
    (s.resetWith cpb).mixer.openFrame next = MixFrame.empty := by
  cases next <;> rfl

/-- An open frame after reset holds no sample in any row (R86). -/
theorem MixFrame.empty_rows (b : Fin 16) (i : Fin 48) : MixFrame.empty.rows[b][i] = Accumulator.zero := by
  rw [MixFrame.empty, getElem_replicate_fin, getElem_replicate_fin]

theorem reference_resetWith (s : State) (cpb : BitVec 12) (ref : Ref) :
    (s.resetWith cpb).timing.reference ref = Reference.reset := by
  cases ref <;> rfl

/-- With no record in the table no camera has an OPEN clip. -/
theorem openId_reset (k : Fin 8) : Label.reset.openId k = 0 := by
  have none : Label.reset.openOf k = none := by
    rw [Label.openOf, List.find?_eq_none]
    intro i _
    have free : Label.reset.clips[i] = Option.none := getElem_replicate_fin ..
    rw [free]
    exact Bool.false_ne_true
  rw [Label.openId, none]

theorem attn_resetWith (s : State) (cpb : BitVec 12) : (s.resetWith cpb).attn = false := by
  change ((0 : Count16) - 0 != 0) = false
  decide

theorem stagedFlags_resetWith (s : State) (cpb : BitVec 12) :
    (s.resetWith cpb).stagedFlags = List.replicate 10 false := by
  simp only [State.stagedFlags, stream_resetWith, line_resetWith]
  rfl

end Sys2Proof.Machine

open Sys2Proof Sys2Proof.Machine

/-- Settles O2: each table is filled with one value, and the rest is read off the reset states of the blocks. -/
theorem resetLeavesTheStatedValues : Obligations.ResetLeavesTheStatedValues := by
  intro cpb s
  have cell {α : Type} {n : Nat} (a : α) (i : Fin n) : (Vector.replicate n a)[i] = a := getElem_replicate_fin a i
  refine ⟨s.resetWith cpb, exec_reset cpb s, rfl, rfl, fun i => ?windows, rfl, rfl, fun k => ?tags, cell none,
    cell RequestQueue.empty, rfl, rfl, rfl, rfl, rfl, rfl, cell _, rfl, rfl, rfl, rfl, rfl, rfl, fun l => ?totals, rfl, rfl,
    rfl, rfl, rfl, rfl, rfl, rfl, rfl, rfl, rfl, attn_resetWith s cpb, stagedFlags_resetWith s cpb,
    reference_resetWith s cpb, rfl, rfl, rfl, rfl, rfl, cell none,
    fun i => ⟨cell false i, cell EdgeSelection.off i⟩, cell Source.reset, rfl, rfl, rfl, cell 0, fun next => ?frames,
    fun b => ?meters, cell none, rfl, rfl, rfl, rfl, rfl, rfl, rfl, rfl, rfl, rfl, rfl, fun k => ?cameras,
    fun i => ?inputs, stream_resetWith s cpb, fun l => ?lines⟩
  case windows =>
    have window : (s.resetWith cpb).path.windows[i] = WindowEntry.disabled := cell ..
    rw [window]
    exact ⟨rfl, rfl, cell false i⟩
  case tags =>
    have tag : (s.resetWith cpb).path.tags[k] = { forwarded := 0, intercepted := 0, address := 0 } := cell ..
    rw [tag]
    exact ⟨rfl, rfl⟩
  case totals => exact ⟨cell Totals.zero l, cell true l, cell _ l⟩
  case frames =>
    rw [openFrame_resetWith]
    exact ⟨rfl, cell 0, fun b => ⟨cell false b, MixFrame.empty_rows b⟩⟩
  case meters =>
    have held : (s.resetWith cpb).mixer.held[b] = { frame := 0xFFFFFFFF, samples := Vector.replicate 48 0 } := cell ..
    rw [held]
    exact ⟨cell 0 b, rfl, cell 0⟩
  case cameras => exact ⟨cell _ k, openId_reset k, cell none k⟩
  case inputs =>
    have input : (s.resetWith cpb).label.applied.inputs[i] = { function := .none, camera := 0, edge := .off } :=
      cell ..
    rw [input]
    exact ⟨rfl, rfl⟩
  case lines =>
    rw [ltx_resetWith, line_resetWith]
    and_intros <;> rfl

end

section
/-! SUPPORT. Command records, their further reads, and the commands of the timing unit, the label unit, the governor
and the send lists (R11, R23-R28, R55, R118, R133, R146, R170, R172). -/

set_option Elab.async false

namespace Sys2Proof.Machine

variable {s : State}

/-! ## Bytes -/

theorem byteAt_cons_zero (b : Byte) (bs : List Byte) : byteAt (b :: bs) 0 = b.toNat := by
  simp [byteAt, field, slice, ofLE]

theorem byteAt_cons_succ (b : Byte) (bs : List Byte) (k : Nat) : byteAt (b :: bs) (k + 1) = byteAt bs k := rfl

theorem byteAt_lt (bs : List Byte) (k : Nat) : byteAt bs k < 256 := by
  unfold byteAt field slice
  cases h : (bs.drop k).take 1 with
  | nil => exact Nat.zero_lt_succ _
  | cons b rest =>
    have short : rest = [] := by
      have len := congrArg List.length h
      rw [List.length_take, List.length_cons] at len
      exact List.eq_nil_of_length_eq_zero (by omega)
    rw [short]
    exact b.isLt

theorem byteAt_leBytes {n k : Nat} (h : k < n) (v : Nat) : byteAt (leBytes n v) k = v / 256 ^ k % 256 := by
  induction n generalizing k v with
  | zero => cases h
  | succ n ih =>
    rw [leBytes]
    cases k with
    | zero =>
      rw [byteAt_cons_zero, pow_zero, Nat.div_one]
      exact BitVec.toNat_ofNat ..
    | succ k =>
      rw [byteAt_cons_succ, ih (Nat.lt_of_succ_lt_succ h), Nat.div_div_eq_div_mul, pow_succ']

/-! ## Command records (R24) -/

/-- How R24 judges a record of an opcode whose objects are below a limit. -/
def JudgedRecord (bs : List Byte) (opcode limit : Nat) (result : Except Nat Handed) : Prop :=
  if limit ≤ byteAt bs 1 then result = .error 0xFFFD
  else ∃ h : Handed, result = .ok h ∧ h.opcode = opcode ∧ (∀ o, h.object? = some o → o = byteAt bs 1) ∧
    ∀ p, h.parameter? = some p → p = BitVec.ofNat 64 (field bs 8 8)

/-- A record whose opcode has no object. -/
theorem judgedRecord_of_no_object {bs : List Byte} {opcode : Nat} (h : Handed) (code : byteAt bs 0 = opcode)
    (own : h.opcode = opcode) (object : h.object? = none)
    (parameter : ∀ p, h.parameter? = some p → p = BitVec.ofNat 64 (field bs 8 8)) :
    JudgedRecord bs (byteAt bs 0) 256 (.ok h) := by
  have below := byteAt_lt bs 1
  rw [JudgedRecord, if_neg (by omega)]
  refine ⟨h, rfl, own.trans code.symm, fun o named => ?_, parameter⟩
  rw [object] at named
  cases named

/-- A record whose opcode has an object. -/
theorem judgedRecord_of_object {bs : List Byte} {n opcode : Nat} {result : Except Nat Handed} (f : Fin n → Handed)
    (code : byteAt bs 0 = opcode) (own : ∀ k, (f k).opcode = opcode) (object : ∀ k, (f k).object? = some k.val)
    (parameter : ∀ k p, (f k).parameter? = some p → p = BitVec.ofNat 64 (field bs 8 8))
    (missing : toFin n (byteAt bs 1) = none → result = .error 0xFFFD)
    (found : ∀ k, toFin n (byteAt bs 1) = some k → result = .ok (f k)) : JudgedRecord bs (byteAt bs 0) n result := by
  unfold JudgedRecord
  split
  next above => exact missing (toFin_of_le above)
  next below =>
    refine ⟨f _, found _ (toFin_of_lt (Nat.lt_of_not_le below)), (own _).trans code.symm, fun o e => ?_, parameter _⟩
    rw [object] at e
    exact (Option.some.inj e).symm

/-- R24's judgement of every record. -/
theorem decodeRecord_judged (bs : List Byte) :
    (objectLimit (byteAt bs 0) = none ∧ decodeRecord bs = .error 0xFFFF) ∨
    ∃ limit, objectLimit (byteAt bs 0) = some limit ∧
      JudgedRecord bs (byteAt bs 0) limit (decodeRecord bs) := by
  have unnamed {h : Handed} (none : h.parameter? = none) (p : BitVec 64) (e : h.parameter? = some p) :
      p = BitVec.ofNat 64 (field bs 8 8) := by
    rw [none] at e
    cases e
  have carried {h : Handed} (own : h.parameter? = some (BitVec.ofNat 64 (field bs 8 8))) (p : BitVec 64)
      (e : h.parameter? = some p) : p = BitVec.ofNat 64 (field bs 8 8) := Option.some.inj (e.symm.trans own)
  unfold decodeRecord
  dsimp only
  split
  next code => exact .inr ⟨_, congrArg objectLimit code, judgedRecord_of_no_object .applyWindows code rfl rfl (unnamed rfl)⟩
  next code => exact .inr ⟨_, congrArg objectLimit code, judgedRecord_of_object .applySettings code (fun _ => rfl) (fun _ => rfl)
    (fun _ => unnamed rfl) (fun e => by rw [e]) fun _ e => by rw [e]⟩
  next code => exact .inr ⟨_, congrArg objectLimit code, judgedRecord_of_no_object (.jamTimecode _) code rfl rfl (carried rfl)⟩
  next code => exact .inr ⟨_, congrArg objectLimit code, judgedRecord_of_object
    (.clipMark · (BitVec.ofNat 64 (field bs 8 8))) code (fun _ => rfl) (fun _ => rfl) (fun _ => carried rfl)
    (fun e => by rw [e]) fun _ e => by rw [e]⟩
  next code => exact .inr ⟨_, congrArg objectLimit code, judgedRecord_of_object .streamFlush code (fun _ => rfl) (fun _ => rfl)
    (fun _ => unnamed rfl) (fun e => by rw [e]) fun _ e => by rw [e]⟩
  next code => exact .inr ⟨_, congrArg objectLimit code, judgedRecord_of_object .lineStart code (fun _ => rfl) (fun _ => rfl)
    (fun _ => unnamed rfl) (fun e => by rw [e]) fun _ e => by rw [e]⟩
  next code => exact .inr ⟨_, congrArg objectLimit code, judgedRecord_of_object .lineHalt code (fun _ => rfl) (fun _ => rfl)
    (fun _ => unnamed rfl) (fun e => by rw [e]) fun _ e => by rw [e]⟩
  next code => exact .inr ⟨_, congrArg objectLimit code, judgedRecord_of_object .lineClear code (fun _ => rfl) (fun _ => rfl)
    (fun _ => unnamed rfl) (fun e => by rw [e]) fun _ e => by rw [e]⟩
  next code => exact .inr ⟨_, congrArg objectLimit code, judgedRecord_of_object .lineResume code (fun _ => rfl) (fun _ => rfl)
    (fun _ => unnamed rfl) (fun e => by rw [e]) fun _ e => by rw [e]⟩
  next code => exact .inr ⟨_, congrArg objectLimit code, judgedRecord_of_object
    (.sendList · (BitVec.ofNat 64 (field bs 8 8))) code (fun _ => rfl) (fun _ => rfl) (fun _ => carried rfl)
    (fun e => by rw [e]) fun _ e => by rw [e]⟩
  next code => exact .inr ⟨_, congrArg objectLimit code, judgedRecord_of_no_object (.measureStart _) code rfl rfl (carried rfl)⟩
  next code => exact .inr ⟨_, congrArg objectLimit code, judgedRecord_of_no_object .measureStop code rfl rfl (unnamed rfl)⟩
  next =>
    refine .inl ⟨?_, rfl⟩
    unfold objectLimit
    split <;> trivial

/-! ## The completion write's return (R26) -/

/-- A command is complete, and the next record is fetched when the counts differ. -/
theorem finishCommand_eq (running : s.command.stopped = false) :
    let consumer : Count16 :=
      if s.command.consumer = s.command.executing then s.command.executing + 1 else s.command.consumer
    let idle : State := { s with command := { s.command with state := .idle, consumer := consumer } }
    finishCommand s =
      if s.command.producer = consumer then idle
      else makeRequest commandQueue
        { purpose := .recordRead
          fixed := some (readAt (s.controlPage + 0x0C00 + 32 * (consumer.toNat % 16)) 4) }
        { idle with command := { idle.command with state := .fetching, executing := consumer } } := by
  intro consumer idle
  change fetchCommand idle = _
  split
  next same => exact fetchCommand_of_not_ready fun ⟨_, different⟩ => different same
  next different => exact fetchCommand_of_ready (s := idle) rfl different running

/-! ## Timecodes and notices -/

theorem Timecode.ofP1_eq (p : BitVec 64) : Timecode.ofP1 p =
    { hh := p.toNat / 2 ^ 24 % 256, mm := p.toNat / 2 ^ 16 % 256, ss := p.toNat / 2 ^ 8 % 256, ff := p.toNat % 256 } := by
  have byte {k : Nat} (h : k < 8) := byteAt_leBytes h p.toNat
  rw [Timecode.ofP1, byte (k := 3) (by omega), byte (k := 2) (by omega), byte (k := 1) (by omega), byte (k := 0) (by omega),
    pow_zero, Nat.div_one]
  norm_num

theorem addNotice_of_room {ns : List Notice} (room : ns.length < 4) (first last : Count32) (flag : Bool) :
    addNotice first last flag ns = ns ++ [{ first := first, last := last, isPartial := flag }] := if_pos room

theorem addNotice_of_full {older : List Notice} {y : Notice} (full : 4 ≤ (older ++ [y]).length)
    (first last : Count32) (flag : Bool) :
    addNotice first last flag (older ++ [y]) = older ++ [y.widen first last flag] := by
  have reversed : (older ++ [y]).reverse = y :: older.reverse := by simp
  rw [addNotice, if_neg (c := _ < Config.noticePlaces) (Nat.not_lt.mpr full), reversed]
  dsimp only
  rw [List.reverse_reverse]

/-- The notice of a flush stands for the pictures discarded, when there are any (R146). -/
theorem Stream.flush_notices (x : Stream) :
    let owed := x.pictures.filter fun p => p.state != .corrupt
    let begun := owed.any fun y => decide (y.unsent < y.length)
    (owed = [] → x.flush.notices = x.notices) ∧
    ∀ p q : Picture, owed.head? = some p → owed.getLast? = some q →
      x.flush.notices = addNotice p.number q.number begun x.notices := by
  intro owed begun
  have notices : x.flush.notices = match owed with
      | [] => x.notices
      | p :: _ => addNotice p.number ((owed.getLast?).getD p).number begun x.notices := rfl
  rw [notices]
  refine ⟨fun none => by rw [none], fun p q first last => ?_⟩
  cases pictures : owed with
  | nil =>
    rw [pictures] at first
    cases first
  | cons p' rest =>
    rw [pictures] at first last
    cases first
    dsimp only
    rw [last]
    rfl

/-! ## Descriptor fetches -/

theorem badDescriptorAddress_iff (a : Nat) : badDescriptorAddress a = true ↔ a % 32 ≠ 0 ∨ 2 ^ 36 ≤ a := by
  simp [badDescriptorAddress]

/-- A fetch of a list that is being set takes the job number that stands. -/
theorem fetchDescriptor_setList (l : LineId) (y : SendList) (s : State) :
    fetchDescriptor l (s.setList l y) = makeRequest (lineQueue l)
      { purpose := .descriptorFetch l (s.line l).nextJob, fixed := some (readAt y.current 4) }
      (s.setLine l { s.line l with
        nextJob := (s.line l).nextJob + 1
        list := { y with loaded := none, fetching := some (s.line l).nextJob } }) := by
  unfold fetchDescriptor State.setList
  dsimp only
  rw [State.setLine_line_same, State.setLine_setLine]

end Sys2Proof.Machine

open Sys2Proof Sys2Proof.Machine

/-- Settles O23: by the response, and by how R24 judges the record. -/
theorem recordIsDecodedAndHandedOut : Obligations.RecordIsDecodedAndHandedOut := by
  intro r k i s answers purpose running bs freed executing
  have run := internalReturn_of_answers (wanted := Purpose.isRecordRead) (taken := recordReturned) answers
    (by rw [purpose]; rfl)
  refine ⟨fun error => ?_, fun ok => ?_⟩
  · rw [error, if_neg Bool.false_ne_true] at run
    refine run.trans (congrArg _ ?_)
    unfold recordReturned
    rw [if_neg (by simp [faultedState, freeTag, running]), error]
    rfl
  · rw [ok, if_pos rfl] at run
    have judged : exec (.recordReadReturn r) s = .next (match decodeRecord bs with
        | .ok h => { executing with command := { executing.command with handed := some h } }
        | .error w => complete .invalid w executing) := by
      refine run.trans (congrArg _ ?_)
      unfold recordReturned
      rw [if_neg (by simp [freeTag, running]), if_pos ok]
      rfl
    rcases decodeRecord_judged bs with ⟨none, decoded⟩ | ⟨limit, some, decoded⟩
    · rw [none]
      rw [decoded] at judged
      exact judged
    · rw [some]
      unfold JudgedRecord at decoded
      dsimp only
      split at decoded
      next above =>
        rw [if_pos above]
        rw [decoded] at judged
        exact judged
      next below =>
        rw [if_neg below]
        obtain ⟨h, handed, code, object, parameter⟩ := decoded
        rw [handed] at judged
        exact ⟨h, code, object, parameter, judged⟩

/-- Settles O24: only a first ERROR presents the write again. -/
theorem completionWriteEndsTheCommand : Obligations.CompletionWriteEndsTheCommand := by
  intro r k i again s answers purpose running freed answered consumer idle read
  have run := internalReturn_of_answers (wanted := Purpose.isCompletionWrite) (taken := completionReturned) answers
    (by rw [purpose]; rfl)
  refine run.trans (congrArg _ ?_)
  change completionReturned i r answered = _
  have command : answered.command = s.command := by
    unfold answered
    split <;> rfl
  have page : answered.controlPage = s.controlPage := by
    unfold answered
    split <;> rfl
  have running' : answered.command.stopped = false := by rw [command, running]
  have finished : finishCommand answered = if s.command.producer = consumer then idle
      else makeRequest commandQueue { purpose := .recordRead, fixed := some read }
        { idle with command := { idle.command with state := .fetching, executing := consumer } } := by
    rw [finishCommand_eq running', command, page]
    rfl
  unfold completionReturned
  rw [running', if_neg Bool.false_ne_true, purpose]
  cases ok : r.ok with
  | true =>
    rw [if_neg (by simp), ← finished]
    cases again <;> rfl
  | false =>
    cases again with
    | true => rw [if_neg (by simp), ← finished]
    | false => rw [if_pos ⟨rfl, rfl⟩]

/-- Settles O25: the reads are a run of the control page, made in order. -/
theorem applyCommandsMakeTheirReads : Obligations.ApplyCommandsMakeTheirReads := by
  intro s running started read
  have run (reads : List Made) (group : Option (Fin 10)) :
      startGather group reads s = makeRequests commandQueue reads (started group reads.length) := rfl
  refine ⟨fun handed => ?_, fun g handed single => ?_, fun handed => ?_⟩
  · change execApplyWindows s = _
    unfold execApplyWindows
    rw [handed]
    dsimp only
    rw [running, if_neg Bool.false_ne_true, run]
    rfl
  · change execApplySettings s = _
    unfold execApplySettings
    rw [handed]
    dsimp only
    rw [running, if_neg Bool.false_ne_true, if_neg single, run, groupOffset, if_neg single]
    rfl
  · change execApplySettings s = _
    unfold execApplySettings
    rw [handed]
    dsimp only
    rw [running, if_neg Bool.false_ne_true, if_pos (c := (9 : Fin 10).val = 9) rfl, run, State.pageReads, makeRequests, List.foldl_map,
      List.length_map, List.length_range]
    simp only [Nat.add_assoc]
    rfl

/-- Settles O28: JAM_TIMECODE by the checks of R55, CLIP_MARK by its function code. -/
theorem jamAndClipMarkAreTaken : Obligations.JamAndClipMarkAreTaken := by
  refine ⟨?jam, fun camera p s handed running => ?mark⟩
  case jam =>
    intro p s handed running ff ss mm hh
    have failure : firstFailure (jamChecks { hh := hh, mm := mm, ss := ss, ff := ff } s.timing.rate) =
        if 23 < hh then some 1 else if 59 < mm then some 2 else if 59 < ss then some 3
        else if s.timing.rate.frameBase ≤ ff then some 4
        else if ss = 0 ∧ mm % 10 ≠ 0 ∧ ff < s.timing.rate.skipped then some 5 else none := by
      simp [jamChecks, firstFailure, Timecode.isSkipped, and_assoc]
    change execJamTimecode s = _
    unfold execJamTimecode
    rw [handed]
    dsimp only
    rw [running, if_neg Bool.false_ne_true, Timecode.ofP1_eq, failure]
    split_ifs <;> rfl
  case mark =>
    have run (c : Option MarkFunction) (code : MarkFunction.ofCode (p.toNat % 256) = c) :
        (c = none ∨ c = some .none → exec .clipMark s = .next (complete .invalid 1 s)) ∧
        ∀ f, c = some f → f ≠ .none →
          exec .clipMark s = .next (complete .accepted 0 (fillSlot 6 (some (f, camera)) s)) := by
      change (_ → execClipMark s = _) ∧ ∀ f, _ → _ → execClipMark s = _
      unfold execClipMark
      rw [handed]
      dsimp only
      rw [if_neg (Bool.eq_false_iff.mp running), code]
      refine ⟨?_, fun f own some => ?_⟩
      · rintro (rfl | rfl) <;> rfl
      · subst own
        cases f
        case none => exact absurd rfl some
        all_goals rfl
    obtain ⟨refused, taken⟩ := run _ rfl
    refine ⟨fun wrong => refused ?_, fun low high => ?_⟩
    · unfold MarkFunction.ofCode
      split
      case h_1 => exact .inr rfl
      case h_7 => exact .inl rfl
      all_goals omega
    · have code : ∃ f, MarkFunction.ofCode (p.toNat % 256) = some f ∧ f ≠ .none := by
        have codes : p.toNat % 256 = 1 ∨ p.toNat % 256 = 2 ∨ p.toNat % 256 = 3 ∨ p.toNat % 256 = 4 ∨
            p.toNat % 256 = 5 := by omega
        rcases codes with code | code | code | code | code <;> rw [code] <;>
          exact ⟨_, rfl, MarkFunction.noConfusion⟩
      obtain ⟨f, code, some⟩ := code
      refine ⟨f, code, ?_⟩
      rw [taken f code some]
      rfl

/-- Settles O29: by whether a CODED window is applied, and the notices by addNotice. -/
theorem streamFlushEmptiesTheStream : Obligations.StreamFlushEmptiesTheStream := by
  intro n s handed running
  refine ⟨fun none => ?_, fun some => ?_⟩
  · change execStreamFlush s = _
    unfold execStreamFlush
    rw [handed]
    dsimp only
    rw [running, none]
    rfl
  · have applied : (s.codedWindow n).isSome = true := Option.isSome_iff_ne_none.mpr some
    let x : Stream := { (s.stream n).flush with
      hint := ((s.stream n).flush.applied.map (·.base)).getD (s.stream n).flush.hint }
    have run : exec .streamFlush s =
        .next (complete .accepted 0 (offer n.val (.stream 0 0 1 (s.stream n).counter) (s.setStream n x))) := by
      change execStreamFlush s = _
      unfold execStreamFlush
      rw [handed]
      dsimp only
      rw [running, if_neg Bool.false_ne_true, if_pos applied, flushEvent, State.setStream_stream_same]
      rfl
    obtain ⟨none, discarded⟩ := (s.stream n).flush_notices
    refine ⟨x, run, rfl, rfl, rfl, rfl, rfl, rfl, rfl, rfl, fun g settings => ?_, fun settings => ?_, none,
      fun p q first last room => ?_, fun p q older y first last held full => ?_⟩
    · change ((s.stream n).applied.map (·.base)).getD (s.stream n).hint = g.base
      rw [settings]
      rfl
    · change ((s.stream n).applied.map (·.base)).getD (s.stream n).hint = (s.stream n).hint
      rw [settings]
      rfl
    · exact (discarded p q first last).trans (addNotice_of_room room ..)
    · refine (discarded p q first last).trans ?_
      rw [held] at full ⊢
      exact addNotice_of_full full ..

/-- Settles O31: by the cases of R170 and R172. -/
theorem sendListAndResumeDecide : Obligations.SendListAndResumeDecide := by
  intro l s running x fetch
  refine ⟨?list, ?resume⟩
  · intro p handed list
    change execSendList s = _
    unfold execSendList
    rw [handed]
    dsimp only
    rw [if_neg (Bool.eq_false_iff.mp running), fetchDescriptor_setList]
    simp only [badDescriptorAddress_iff]
    by_cases bad : p.toNat % 32 ≠ 0 ∨ 2 ^ 36 ≤ p.toNat
    · rw [if_pos bad, if_pos bad]
    · rw [if_neg bad, if_neg bad]
      by_cases attached : x.list.state ≠ .none
      · rw [if_pos attached, if_pos attached]
      · rw [if_neg attached, if_neg attached]
        rfl
  · intro handed list
    change execLineResume s = _
    unfold execLineResume
    rw [handed]
    dsimp only
    rw [if_neg (Bool.eq_false_iff.mp running)]
    cases state : (s.line l).list.state with
    | none => rfl
    | held => rw [fetchDescriptor_setList]; rfl
    | running => rfl

end

section
/-! SUPPORT. Offered events, the receiver's LOS, and the returns of a line's reads (R30, R31, R84, R136, R165, R166,
R171, R174, R187). -/

set_option Elab.async false

namespace Sys2Proof.Machine

variable {s t : State}

/-! ## Events (R30, R31) -/

/-- The details of two events of a pair join by the rule of their kind, which is the saturating sum of the counts, the
union of the sets, and else the latest. -/
theorem Detail.merge_eq (old new : Detail) :
    let sum (a b : Nat) : Nat := min (a + b) 4294967295
    old.merge new = match old, new with
      | .stream a c f _, .stream a' c' f' p => .stream (sum a a') (sum c c') (sum f f') p
      | .audioUnderrun a, .audioUnderrun b => .audioUnderrun (a ||| b)
      | .busSaturation a n, .busSaturation b m => .busSaturation (a ||| b) (sum n m)
      | .markOverwrite a, .markOverwrite b => .markOverwrite (a ||| b)
      | .clipRefused a n, .clipRefused b m => .clipRefused (a ||| b) (sum n m)
      | .fault _ n, .fault a m => .fault a (sum n m)
      | _, _ => new := by
  cases old <;> cases new <;> rfl

theorem any_ofPair_eq_false_iff {object : Nat} {d : Detail} {queue : List Record} :
    queue.any (Record.ofPair object d) = false ↔ ∀ y ∈ queue, y.pair ≠ (d.kind, object) := by
  simp only [List.any_eq_false, ofPair_iff]

/-- The one record of a pair is joined in its place. -/
theorem map_joined {object : Nat} {d : Detail} {before after : List Record} {q : Record}
    (own : q.pair = (d.kind, object)) (others : ∀ y ∈ before ++ after, y.pair ≠ (d.kind, object)) :
    ((before ++ q :: after).map fun y => if y.ofPair object d then y.coalesce d else y) =
      before ++ q.coalesce d :: after := by
  have same (ys : List Record) (sub : ys ⊆ before ++ after) :
      (ys.map fun y => if y.ofPair object d then y.coalesce d else y) = ys := by
    conv_rhs => rw [← List.map_id ys]
    refine List.map_congr_left fun y mem => if_neg ?_
    rw [ofPair_iff]
    exact others y (sub mem)
  rw [List.map_append, List.map_cons, same before (List.subset_append_left ..),
    same after (List.subset_append_right ..), if_pos (ofPair_iff.mpr own)]

/-- A FAULT record enters behind the FAULT records at the head. -/
theorem enterQueue_of_fault {r : Record} {faults others : List Record} (h : r.detail.kind = 10)
    (head : ∀ y ∈ faults, y.detail.kind = 10) (tail : ∀ y ∈ others, y.detail.kind ≠ 10) :
    enterQueue r (faults ++ others) = faults ++ r :: others := by
  have isFault : r.isFault = true := beq_iff_eq.mpr h
  have all : ∀ y ∈ faults, y.isFault = true := fun y mem => beq_iff_eq.mpr (head y mem)
  have none : others.takeWhile Record.isFault = [] ∧ others.dropWhile Record.isFault = others := by
    cases others with
    | nil => exact ⟨rfl, rfl⟩
    | cons y rest =>
      have other : ¬ y.isFault = true := fun fault => tail y List.mem_cons_self (beq_iff_eq.mp fault)
      exact ⟨List.takeWhile_cons_of_neg other, List.dropWhile_cons_of_neg other⟩
  rw [enterQueue, if_pos isFault, List.takeWhile_append_of_pos all, List.dropWhile_append_of_pos all, none.1, none.2,
    List.append_nil]

theorem enterQueue_of_other {r : Record} (h : r.detail.kind ≠ 10) (queue : List Record) :
    enterQueue r queue = queue ++ [r] := if_neg fun fault => h (beq_iff_eq.mp fault)

theorem offer_line (object : Nat) (d : Detail) (s : State) (l : LineId) : (offer object d s).line l = s.line l :=
  congrArg (·[l]) (offer_changes ..).lines

/-! ## LOS (R84, R187) -/

/-- The two sources of a line are IDLE after its LOS. -/
theorem mixerLos_source (l : LineId) (c : Fin 2) (running : s.mixer.stopped = false) :
    (((mixerLos l s).mixer.sources[returnSource l c]).active = false) ∧
    ((mixerLos l s).mixer.sources[returnSource l c]).idleRun = 8 := by
  have different : returnSource l 0 ≠ returnSource l 1 := fun same => by
    have := congrArg Fin.val same
    simp [returnSource] at this
  unfold mixerLos
  rw [if_neg (Bool.eq_false_iff.mp running)]
  dsimp only [State.setMixer]
  rw [show List.finRange 2 = [0, 1] from rfl, List.foldl_cons, List.foldl_cons, List.foldl_nil]
  dsimp only
  rw [getElem_set_fin, getElem_set_fin]
  have channels : c = 0 ∨ c = 1 := by omega
  rcases channels with rfl | rfl
  · rw [if_neg different, getElem_set_fin, if_pos rfl]
    exact ⟨rfl, rfl⟩
  · rw [if_pos rfl]
    exact ⟨rfl, rfl⟩

theorem giveLos_of_normal (l : LineId) (declared : Bool) (normal : s.isNormal = true) :
    giveLos l declared s = { s with fault := { s.fault with los := s.fault.los.set l declared } } := if_pos normal

theorem measureOffer_of_normal (l : LineId) (f : Totals → Totals) (normal : s.isNormal = true) :
    measureOffer l f s = if s.fault.state = .active then
        { s with fault := { s.fault with totals := s.fault.totals.set l (f s.fault.totals[l]) } }
      else s := by
  simp [measureOffer, normal]

/-- A declaration that is new tells the mixer and the measurement and offers its event. -/
theorem declareLos_of_new (l : LineId) (new : (s.line l).receiver.los = false) :
    declareLos l s = offer l.val (.lineSignal true .hunt) (mixerLos l (giveLos l true
      (s.setReceiver l { (s.line l).receiver.hunt with los := true, losDue := false }))) := by
  let u := mixerLos l (giveLos l true
    (s.setReceiver l { (s.line l).receiver.hunt with los := true, losDue := false }))
  have lines : u.lines = (s.setReceiver l { (s.line l).receiver.hunt with los := true, losDue := false }).lines :=
    (mixerLos_changes ..).lines.trans (giveLos_changes ..).lines
  have own : (u.line l).receiver = { (s.line l).receiver.hunt with los := true, losDue := false } := by
    rw [State.line, lines]
    exact congrArg Line.receiver (State.setLine_line_same ..)
  have signal : declareLos l s = signalEvent l (s.line l).receiver u := by
    unfold declareLos
    dsimp only
    rw [if_neg (Bool.eq_false_iff.mp new)]
  rw [signal, signalEvent, own]
  dsimp only
  rw [if_neg fun ⟨same, _⟩ => by rw [new] at same; cases same]
  rfl

theorem vector_set_getElem_fin {α : Type} {n : Nat} (v : Vector α n) (i : Fin n) : v.set i v[i] = v := by simp

theorem State.setStream_stream_self (s : State) (n : Fin 4) : s.setStream n (s.stream n) = s := by
  unfold State.setStream State.stream
  rw [vector_set_getElem_fin]

/-! ## A line's jobs (R136, R165, R166) -/

theorem Line.findJob_eq {x : Line} {id : Nat} {j : ReadJob} (h : x.jobs.filter (fun y => y.id == id) = [j]) :
    x.findJob id = some j ∧ j.id = id := by
  refine ⟨by rw [Line.findJob, ← List.head?_filter, h]; rfl, ?_⟩
  have own : j ∈ x.jobs.filter (fun y => y.id == id) := by
    rw [h]
    exact List.mem_singleton_self j
  exact beq_iff_eq.mp (List.mem_filter.mp own).2

theorem Line.settlePayload_eq (x : Line) (job : Nat) (p : Payload) : x.settlePayload job p =
    { x with next := x.next.map fun d => if d.payload = .waiting job then { d with payload := p } else d } := by
  unfold Line.settlePayload
  split
  next d next =>
    rw [next, Option.map_some]
    split
    · rfl
    · rw [← next]
  next none =>
    rw [none, Option.map_none, ← none]

/-- The end of a claim in a running governor (R136). -/
theorem endClaim_of_running (n : Fin 4) (withData : Bool) (running : s.governor.stopped = false) :
    endClaim n withData s =
      (s.setStream n ((s.stream n).endClaim withData).1, ((s.stream n).endClaim withData).2) := by
  rw [endClaim, if_neg (Bool.eq_false_iff.mp running)]

theorem Stream.endClaim_of_stands {x : Stream} {c : Claim} (claim : x.claim = some c) (valid : c.isVoid = false) :
    x.endClaim true = ({ x with
      claim := none
      fill := x.fill - c.length
      pictures := (x.drain c.length).pictures.dropWhile fun p => p.state == .corrupt }, true) := by
  simp [Stream.endClaim, claim, valid, Stream.dropCorrupt, Stream.drain]

theorem Stream.endClaim_of_not_stands {x : Stream} {c : Claim} {withData : Bool} (claim : x.claim = some c)
    (h : (withData && !c.isVoid) = false) :
    x.endClaim withData = ({ x with
      claim := none
      pictures := x.pictures.dropWhile fun p => p.state == .corrupt }, false) := by
  simp [Stream.endClaim, claim, h, Stream.dropCorrupt]

theorem Stream.endClaim_of_none {x : Stream} (withData : Bool) (claim : x.claim = none) :
    x.endClaim withData = (x, false) := by
  simp [Stream.endClaim, claim]

end Sys2Proof.Machine

open Sys2Proof Sys2Proof.Machine

/-- Settles O18: by whether the pair has a record, and by whether the event is a FAULT. -/
theorem offeredEventMakesOrJoinsARecord : Obligations.OfferedEventMakesOrJoinsARecord := by
  intro object d s sum joined
  have merged (old : Detail) : joined old = old.merge d := (Detail.merge_eq old d).symm
  by_cases pending : s.report.queue.any (Record.ofPair object d) = true
  case pos =>
    have notFresh (fresh : ∀ y ∈ s.report.queue, y.pair ≠ (d.kind, object)) : False := by
      rw [any_ofPair_eq_false_iff.mpr fresh] at pending
      cases pending
    let queue := s.report.queue.map fun q => if q.ofPair object d then q.coalesce d else q
    by_cases takes : s.isNormal = true ∨ s.report.stopped = false
    case pos =>
      have offered : offer object d s = { s with report := { s.report with queue := queue } } := by
        rcases takes with normal | running
        · rw [offer_of_normal object d normal, takeEvent]
          exact congrArg (fun q => { s with report := { s.report with queue := q } }) (if_pos pending)
        · exact offer_of_record object d running pending
      refine ⟨queue, offered, fun passOnly stopped => ?_, fun _ fresh => (notFresh fresh).elim,
        fun _ before after q split own others => ?_, fun _ fresh => (notFresh fresh).elim⟩
      · simp [passOnly, stopped] at takes
      · rw [merged]
        unfold queue
        rw [split]
        exact map_joined own others
    case neg =>
      obtain ⟨passOnly, stopped⟩ := not_or.mp takes
      refine ⟨s.report.queue, offer_of_stopped object d (by simpa using passOnly) (by simpa using stopped),
        fun _ _ => rfl, fun _ _ => rfl, fun running => absurd running takes, fun normal => absurd normal passOnly⟩
  case neg =>
    have absent : s.report.queue.any (Record.ofPair object d) = false := Bool.eq_false_iff.mpr pending
    have fresh := any_ofPair_eq_false_iff.mp absent
    have noJoin (before after : List Record) (q : Record) (split : s.report.queue = before ++ q :: after)
        (own : q.pair = (d.kind, object)) : False := by
      refine fresh q ?_ own
      rw [split]
      exact List.mem_append_cons_self
    cases normal : s.isNormal with
    | true =>
      refine ⟨enterQueue (s.eventRecord object d) s.report.queue, ?_, nofun, nofun,
        fun _ before after q split own => (noJoin before after q split own).elim, fun _ _ => ⟨?_, ?_⟩⟩
      · rw [offer_of_normal object d normal, takeEvent]
        exact congrArg (fun q => { s with report := { s.report with queue := q } }) (if_neg pending)
      · exact fun other => enterQueue_of_other other _
      · intro fault faults others split head tail
        rw [split]
        exact enterQueue_of_fault fault head tail
    | false =>
      exact ⟨s.report.queue, offer_of_no_record object d normal absent, fun _ _ => rfl, fun _ _ => rfl,
        fun _ before after q split own => (noJoin before after q split own).elim, nofun⟩

/-- Settles O44: a declaration that is due is new or not; a violation is counted or not. -/
theorem losAndViolationsAreTaken : Obligations.LosAndViolationsAreTaken := by
  intro l s running x
  have due (declared : x.receiver.losDue = true) : exec (.los l) s =
      if x.receiver.los then .next (s.setReceiver l { x.receiver with losDue := false })
      else .next (declareLos l s) := by
    change execLos l s = _
    unfold execLos
    exact if_neg (by simp [running, show (s.line l).receiver.losDue = true from declared])
  refine ⟨fun declared new => ?_, fun declared old => ?_, fun pending normal => ?_⟩
  · rw [due declared, new, if_neg Bool.false_ne_true, declareLos_of_new l new]
    let r : Receiver := { x.receiver.hunt with los := true, losDue := false }
    let u := mixerLos l (giveLos l true (s.setReceiver l r))
    have changes := (declareLos_changes l s).mono (ps := _) (qs := [.report, .mixer, .lines, .fault]) (by decide)
    have others := declareLos_others l s
    rw [declareLos_of_new l new] at changes others
    have lines : u.lines = (s.setReceiver l r).lines := (mixerLos_changes ..).lines.trans (giveLos_changes ..).lines
    have own : ((offer l.val (.lineSignal true .hunt) u).line l).receiver = r := by
      rw [offer_line, State.line, lines]
      exact congrArg Line.receiver (State.setLine_line_same ..)
    refine ⟨_, rfl, changes, others, congrArg Receiver.los own, congrArg Receiver.sync own,
      congrArg Receiver.heldGood own, congrArg Receiver.inFrame own, congrArg Receiver.losDue own,
      fun normal => ?_, fun mixes c y place => ?_⟩
    · have fault : u.fault = { s.fault with los := s.fault.los.set l true } := by
        rw [(mixerLos_changes ..).fault, giveLos_of_normal (s := s.setReceiver l r) l true normal]
        rfl
      have normal' : u.isNormal = true := by
        rw [State.isNormal, fault]
        exact normal
      refine ⟨(offer_changes ..).fault.trans fault, ?_⟩
      · rw [offer_of_normal (s := u) _ _ normal']
        have report : u.report = s.report := (mixerLos_changes ..).report.trans (giveLos_changes ..).report
        have timing : u.timing = s.timing := (mixerLos_changes ..).timing.trans (giveLos_changes ..).timing
        unfold State.firstRecord
        dsimp only
        rw [report, timing]
    · have place' : y = returnSource l c := Fin.ext place
      rw [(offer_changes ..).mixer, place']
      refine mixerLos_source l c ?_
      rw [(giveLos_changes ..).mixer]
      exact mixes
  · rw [due declared, old]
    rfl
  · change execCodeViolation l s = _
    unfold execCodeViolation
    dsimp only
    rw [if_neg (not_or.mpr ⟨Bool.eq_false_iff.mp running, pending.ne'⟩)]
    exact congrArg _ (measureOffer_of_normal (s := s.setLine l _) l _ normal)

/-- Settles O43: by the cases of R171 in their order. -/
theorem descriptorIsJudged : Obligations.DescriptorIsJudged := by
  intro r k i l fetch s answers purpose running x freed bs hold descriptor wrong idle detached ended
  have run := internalReturn_of_answers (wanted := Purpose.isDescriptorFetch) (taken := descriptorReturned) answers
    (by rw [purpose]; rfl)
  have faulted (t : State) : (faultedState 1 (failAt i.request.addr) t).line l = t.line l := rfl
  have returned (t : State) (own : t.line l = x) : descriptorReturned i r t =
      if x.list.fetching = some fetch then judgeDescriptor l r (t.setLine l { x with list := idle }) else t := by
    unfold descriptorReturned
    rw [purpose]
    dsimp only
    rw [own, State.setList, own]
    simp only [show x.stopped = false from running, true_and]
    rfl
  have failed (t : State) (own : t.line l = x) (a : Nat) (at_ : a = x.list.current) :
      listError l a (t.setLine l { x with list := idle }) = ended t := by
    subst at_
    unfold listError State.setList
    dsimp only
    rw [offer_line, State.setLine_line_same]
    rfl
  have decoded : Descriptor.ofBytes bs = { descriptor with hold := byteAt bs 12 % 2 == 1 } := rfl
  have valid (flag : Bool) : ({ descriptor with hold := flag }).valid = true ↔ ¬ wrong := by
    unfold Descriptor.valid wrong descriptor
    simp only [Bool.and_eq_true, bne_iff_ne, decide_eq_true_eq, not_or, not_lt, and_assoc]
  refine ⟨fun forgotten => ?_, fun awaited => ⟨fun error => ?_, fun ok hold' resumes => ?_, fun ok hold' waits => ?_,
    fun ok loads wrong' => ?_, fun ok loads right => ?_⟩⟩
  · refine run.trans (congrArg _ ?_)
    rw [returned _ (by split <;> rfl), if_neg forgotten]
    rfl
  · rw [error, if_neg Bool.false_ne_true] at run
    refine run.trans (congrArg _ ?_)
    change descriptorReturned i r (faultedState 1 (failAt i.request.addr) freed) = _
    rw [returned (faultedState 1 (failAt i.request.addr) freed) rfl, if_pos awaited, judgeDescriptor, if_pos error, State.setLine_line_same]
    exact failed (faultedState 1 (failAt i.request.addr) freed) rfl _ rfl
  all_goals
    rw [ok, if_pos rfl] at run
    refine run.trans (congrArg _ ?_)
    change descriptorReturned i r freed = _
    rw [returned freed rfl, if_pos awaited, judgeDescriptor, if_neg (by rw [ok]; exact Bool.noConfusion), State.setLine_line_same, decoded]
  · rw [if_pos (beq_iff_eq.mpr hold'), if_pos resumes, fetchDescriptor_setList, State.setLine_line_same,
      State.setLine_setLine]
    rfl
  · rw [if_pos (beq_iff_eq.mpr hold'), if_neg (Bool.eq_false_iff.mp waits), State.setList, State.setLine_line_same,
      State.setLine_setLine]
  · rw [if_neg (fun held => loads (beq_iff_eq.mp held)), if_neg]
    · exact failed freed rfl _ rfl
    · rw [valid]
      exact not_not.mpr wrong'
  · rw [if_neg (fun held => loads (beq_iff_eq.mp held)), if_pos, State.setList, State.setLine_line_same,
      State.setLine_setLine]
    · have unheld : (byteAt bs 12 % 2 == 1) = false := beq_false_of_ne loads
      rw [unheld]
    · rw [valid]
      exact right

/-- Settles O42: a LIVE piece by whether its reads are complete and its claim stands, a FILE piece by the response. -/
theorem pieceReadsSettleTheirFrame : Obligations.PieceReadsSettleTheirFrame := by
  intro r k i l id index j s answers running own x freed answered j' all piece stands jobs settled corruptLeave drained
  have ⟨_, _, _, normal, _⟩ := answers
  obtain ⟨found, name⟩ := Line.findJob_eq own
  have line : answered.line l = x := by
    unfold answered
    split <;> rfl
  have running' : ¬ (answered.line l).stopped = true := by
    rw [line]
    exact Bool.eq_false_iff.mp running
  have governor : answered.governor = s.governor := by
    unfold answered
    split <;> rfl
  have kept : x.setJob (j.note index r) = { x with jobs := jobs } := by
    simp [Line.setJob, ReadJob.note, ReadJob.complete, jobs, j', name]
  have settles (y : Line) (next : y.next = x.next) (p : Payload) : y.settlePayload j.id p =
      { y with next := settled p } := by
    rw [Line.settlePayload_eq, next, name]
  have completes : (j.note index r).complete = true ↔ j.total ≤ j'.returned.length := decide_eq_true_iff
  have flags : (!(j.note index r).failed && !(j.note index r).discarded) = true ↔ stands := by
    simp [stands, j', ReadJob.note]
  refine ⟨fun n purpose stream => ?live, fun purpose => ?file⟩
  case live =>
    have run := internalReturn_of_answers (wanted := Purpose.isPayloadRead) (taken := payloadReturned) answers
      (by rw [purpose]; rfl)
    let noted := answered.setLine l { x with jobs := jobs }
    have returned : payloadReturned i r answered =
        if (j.note index r).complete then
          let ended := endClaim n (!(j.note index r).failed && !(j.note index r).discarded) noted
          ended.1.setLine l ((ended.1.line l).settlePayload j.id (if ended.2 then .ready piece else .failed))
        else noted := by
      unfold payloadReturned
      rw [purpose]
      dsimp only
      rw [if_neg running', line, found]
      dsimp only
      unfold payloadJobReturned
      rw [line, kept, show (j.note index r).stream = some n from stream]
      rfl
    have noted_line : noted.line l = { x with jobs := jobs } := State.setLine_line_same ..
    have noted_stream : noted.stream n = s.stream n := congrArg (fun g : Governor => g.streams[n]) governor
    have settled_line (p : Payload) : noted.setLine l ((noted.line l).settlePayload j.id p) =
        answered.setLine l { x with jobs := jobs, next := settled p } := by
      rw [noted_line, settles { x with jobs := jobs } rfl, State.setLine_setLine]
    have settled_stream (y : Stream) (p : Payload) :
        (noted.setStream n y).setLine l (((noted.setStream n y).line l).settlePayload j.id p) =
          (answered.setStream n y).setLine l { x with jobs := jobs, next := settled p } := by
      rw [show (noted.setStream n y).line l = { x with jobs := jobs } from noted_line,
        settles { x with jobs := jobs } rfl]
      exact State.setLine_setLine (answered.setStream n y) ..
    have running' (running : s.governor.stopped = false) : noted.governor.stopped = false :=
      (congrArg Governor.stopped governor).trans running
    refine ⟨fun partly => run.trans (congrArg _ ?_), fun last => ⟨fun c running claim valid stands' => ?_,
      fun c running claim lost => ?_, fun gone => ?_⟩⟩
    · exact returned.trans (if_neg fun all => absurd (completes.mp all) (Nat.not_le.mpr partly))
    all_goals
      refine run.trans (congrArg _ (returned.trans ((if_pos (completes.mpr last)).trans ?_)))
      dsimp only
    · rw [endClaim_of_running n _ (running' running), flags.mpr stands', noted_stream,
        Stream.endClaim_of_stands claim valid]
      exact settled_stream ..
    · have lost' : ((!(j.note index r).failed && !(j.note index r).discarded) && !c.isVoid) = false := by
        rw [Bool.and_eq_false_iff]
        rcases lost with void | fallen
        · exact .inr (by rw [void]; rfl)
        · exact .inl (Bool.eq_false_iff.mpr fun all => fallen (flags.mp all))
      rw [endClaim_of_running n _ (running' running), noted_stream, Stream.endClaim_of_not_stands claim lost']
      exact settled_stream ..
    · cases stopped : s.governor.stopped with
      | true =>
        rw [endClaim, if_pos (show noted.governor.stopped = true from (congrArg Governor.stopped governor).trans stopped)]
        exact settled_line _
      | false =>
        have none := gone.resolve_left (Bool.eq_false_iff.mp stopped)
        have same : noted.setStream n (s.stream n) = noted := by
          rw [← noted_stream]
          exact State.setStream_stream_self ..
        rw [endClaim_of_running n _ (running' stopped), noted_stream, Stream.endClaim_of_none _ none]
        dsimp only
        rw [same]
        exact settled_line _
  case file =>
    have run := internalReturn_of_answers (wanted := Purpose.isFileRead) (taken := fileReturned) answers
      (by rw [purpose]; rfl)
    have returned : fileReturned i r answered = fileJobReturned l (j.note index r) i.request.addr r.ok answered := by
      unfold fileReturned
      rw [purpose]
      dsimp only
      rw [if_neg running', line, found]
    have accepted : acceptResponse k i r s = answered := acceptResponse_of_normal k i r normal
    have changes : ChangesOnly [.path, .report, .fault] s answered := by
      rw [← accepted]
      exact acceptResponse_changes ..
    have same_id : (j.note index r).id = j.id := rfl
    let y : Line := { x with jobs := jobs }
    let failed : Line := { y with next := settled .failed }
    have onOk (ok : r.ok = true) : fileJobReturned l (j.note index r) i.request.addr r.ok answered =
        answered.setLine l
          (if (j.note index r).complete && !(j.note index r).failed then { y with next := settled (.ready piece) }
          else y) := by
      unfold fileJobReturned
      rw [ok, line]
      dsimp only
      rw [kept, State.setLine_line_same, State.setLine_setLine, if_pos rfl, same_id,
        settles { x with jobs := jobs } rfl]
      split <;> rfl
    have onError (error : r.ok = false) : fileJobReturned l (j.note index r) i.request.addr r.ok answered =
        if x.stillAttached j then
          listError l (8 * i.request.addr.toNat) (answered.setLine l failed)
        else answered.setLine l failed := by
      unfold fileJobReturned
      rw [error, line]
      dsimp only
      rw [kept, State.setLine_line_same, State.setLine_setLine, if_neg Bool.false_ne_true,
        same_id, settles { x with jobs := jobs } rfl, State.setLine_setLine]
      rfl
    have attached_iff : x.stillAttached j = true ↔
        x.list.state ≠ .none ∧ x.list.serial = j.serial ∧ j.discarded = false := by
      simp [Line.stillAttached, and_assoc]
    have error_line (error : r.ok = false) :
        ((fileJobReturned l (j.note index r) i.request.addr r.ok answered).line l) =
          if x.stillAttached j then { failed with list := x.list.detach } else failed := by
      rw [onError error]
      split
      · unfold listError State.setList
        dsimp only
        rw [offer_line, State.setLine_line_same, State.setLine_line_same]
      · exact State.setLine_line_same ..
    have ok_line (ok : r.ok = true) :
        ((fileJobReturned l (j.note index r) i.request.addr r.ok answered).line l) =
          if (j.note index r).complete && !(j.note index r).failed then { y with next := settled (.ready piece) }
          else y := by
      rw [onOk ok]
      exact State.setLine_line_same ..
    refine ⟨_, run.trans (congrArg _ returned),
      (changes.mono (by decide)).trans ((fileJobReturned_changes ..).mono (by decide)),
      (OtherLinesSame.of_changes changes).trans (fileJobReturned_others ..), ?_, fun d next waits => ⟨?_, ?_, ?_⟩,
      fun error state serial kept => ?_, fun stays => ?_⟩
    · cases ok : r.ok with
      | true =>
        rw [← ok, ok_line ok]
        split <;> rfl
      | false =>
        rw [← ok, error_line ok]
        split <;> rfl
    · intro ok unfailed last
      have stands' : ((j.note index r).complete && !(j.note index r).failed) = true := by
        rw [completes.mpr last]
        simp [ReadJob.note, unfailed, ok]
      rw [ok_line ok, if_pos stands']
      change settled (.ready piece) = _
      unfold settled
      rw [next, Option.map_some, if_pos waits]
    · intro ok partly
      have waits' : ¬ ((j.note index r).complete && !(j.note index r).failed) = true := by
        rw [Bool.and_eq_true, completes]
        exact fun ⟨last, _⟩ => absurd last (Nat.not_le.mpr partly)
      rw [ok_line ok, if_neg waits']
      exact next
    · intro error
      have own : settled .failed = some { d with payload := .failed } := by
        unfold settled
        rw [next, Option.map_some, if_pos waits]
      rw [error_line error]
      split <;> exact own
    · have attached := attached_iff.mpr ⟨state, serial, kept⟩
      refine ⟨?_, ?_⟩
      · rw [error_line error, if_pos attached]
        rfl
      · have normal : (answered.setLine l failed).isNormal = true := by
          change answered.isNormal = true
          unfold answered
          split <;> exact normal
        have timing : answered.timing = s.timing := changes.timing
        rw [onError error, if_pos attached, listError, offer_of_normal _ _ normal, ← timing]
        rfl
    · cases ok : r.ok with
      | true =>
        rw [← ok, ok_line ok]
        split <;> rfl
      | false =>
        have gone : ¬ x.stillAttached j = true := by
          rw [attached_iff]
          rintro ⟨state, serial, kept⟩
          simp [ok, state, serial, kept] at stays
        rw [← ok, error_line ok, if_neg gone]

end

section
/-! SUPPORT. The arithmetic of gains and outputs, and the validation of a window table (R11, R87-R91). -/

set_option Elab.async false

namespace Sys2Proof.Machine

/-! ## Gains (R87) -/

/-- The share of the way to a gain not below, cut toward zero: within the way, and growing with the index. -/
theorem share_bounds {d n m : Int} (hd : 0 ≤ d) (hn : 0 ≤ n) (h : n ≤ m) (hm : m ≤ 48) :
    0 ≤ (d * n).tdiv 48 ∧ (d * n).tdiv 48 ≤ (d * m).tdiv 48 ∧ (d * m).tdiv 48 ≤ d := by
  have low : 0 ≤ d * n := mul_nonneg hd hn
  have grows : d * n ≤ d * m := mul_le_mul_of_nonneg_left h hd
  have high : d * m ≤ d * 48 := mul_le_mul_of_nonneg_left hm hd
  rw [Int.tdiv_eq_ediv_of_nonneg low, Int.tdiv_eq_ediv_of_nonneg (low.trans grows)]
  omega

/-- The way to a gain below mirrors the way to one above. -/
theorem share_neg (d n : Int) : (-d * n).tdiv 48 = -(d * n).tdiv 48 := by rw [Int.neg_mul, Int.neg_tdiv]

theorem Route.gainAt_last (q : Route) : q.gainAt 47 = q.g1.toNat := by
  have whole : ((q.g1.toNat : Int) - q.g0.toNat) * (((47 : Fin 48).val : Int) + 1) =
      ((q.g1.toNat : Int) - q.g0.toNat) * 48 := rfl
  rw [Route.gainAt, whole, Int.mul_tdiv_cancel _ (by decide)]
  omega

theorem Route.gainAt_rising (q : Route) {i j : Fin 48} (h : i ≤ j) (up : q.g0.toNat ≤ q.g1.toNat) :
    (q.g0.toNat : Int) ≤ q.gainAt i ∧ q.gainAt i ≤ q.gainAt j ∧ q.gainAt j ≤ q.g1.toNat := by
  have index : i.val ≤ j.val := h
  have last := j.isLt
  have share := share_bounds (d := (q.g1.toNat : Int) - q.g0.toNat) (n := i.val + 1) (m := j.val + 1)
    (by omega) (by omega) (by omega) (by omega)
  unfold Route.gainAt
  omega

theorem Route.gainAt_falling (q : Route) {i j : Fin 48} (h : i ≤ j) (down : q.g1.toNat ≤ q.g0.toNat) :
    (q.g1.toNat : Int) ≤ q.gainAt j ∧ q.gainAt j ≤ q.gainAt i ∧ q.gainAt i ≤ q.g0.toNat := by
  have index : i.val ≤ j.val := h
  have last := j.isLt
  have share := share_bounds (d := (q.g0.toNat : Int) - q.g1.toNat) (n := i.val + 1) (m := j.val + 1)
    (by omega) (by omega) (by omega) (by omega)
  have mirrored : (q.g1.toNat : Int) - q.g0.toNat = -((q.g0.toNat : Int) - q.g1.toNat) := by omega
  unfold Route.gainAt
  rw [mirrored, share_neg, share_neg]
  omega

/-! ## Outputs (R90, R91) -/

/-- The nearest whole number, and the one farther from zero of two as near. -/
theorem roundOutput_nearest (a : Int) :
    2 * (a - 16384 * roundOutput a).natAbs ≤ 16384 ∧
    (2 * (a - 16384 * roundOutput a).natAbs = 16384 → a.natAbs < 16384 * (roundOutput a).natAbs) := by
  unfold roundOutput
  dsimp only
  split <;> omega

theorem saturate_eq (y : Int) :
    saturate y = if y < -8388608 then -8388608 else if 8388607 < y then 8388607 else y := by
  unfold saturate
  omega

/-- A saturated value is a sample, so it reads back from its 24 bits. -/
theorem Accumulator.output_toInt (a : Accumulator) : a.output.toInt = saturate (roundOutput a.value.toInt) := by
  have bounds : -8388608 ≤ saturate (roundOutput a.value.toInt) ∧ saturate (roundOutput a.value.toInt) ≤ 8388607 := by
    unfold saturate
    omega
  obtain ⟨low, high⟩ := bounds
  rw [Accumulator.output, BitVec.toInt_ofInt]
  exact Int.bmod_eq_of_le (by omega) (by omega)

/-! ## The fields of an entry (11.2) -/

theorem ofLE_lt (bs : List Byte) : ofLE bs < 256 ^ bs.length := by
  induction bs with
  | nil => exact Nat.one_pos
  | cons b bs ih =>
    have byte : b.toNat < 256 := b.isLt
    rw [ofLE, List.length_cons, pow_succ]
    omega

theorem field_lt (bs : List Byte) (offset n : Nat) : field bs offset n < 256 ^ n := by
  have short : (slice bs offset n).length ≤ n := by
    rw [slice, List.length_take]
    exact Nat.min_le_left ..
  exact (ofLE_lt _).trans_le (Nat.pow_le_pow_right (by decide) short)

theorem field_slice (bs : List Byte) (o w : Nat) {k n : Nat} (h : k + n ≤ w) :
    field (slice bs o w) k n = field bs (o + k) n := by
  unfold field slice
  rw [List.drop_take, List.drop_drop, List.take_take, Nat.min_eq_left (by omega)]

/-- A field that was read into a register of its own width is held where it was read. -/
theorem holds_of_read {bs : List Byte} {offset n w : Nat} (width : 2 ^ w = 256 ^ n) {v : Nat}
    (read : v = field bs offset n) : Holds bs offset n (BitVec.ofNat w v).toNat := by
  subst read
  rw [Holds, BitVec.toNat_ofNat, width, Nat.mod_mod, Nat.mod_eq_of_lt (field_lt ..)]

/-! ## The first entry that fails (R11) -/

/-- The entry at a place of the table fails against the entries of lower index. -/
def FailsAt (page : Nat) (table : List WindowEntry) (k : Nat) : Prop :=
  ∃ e, table[k]? = some e ∧ e.fails (table.take k) page = true

theorem firstBadEntry_eq_some_iff {page k : Nat} {lower rest : List WindowEntry} :
    firstBadEntry page lower rest = some k ↔
      lower.length ≤ k ∧ FailsAt page (lower ++ rest) k ∧
        ∀ j, lower.length ≤ j → j < k → ¬ FailsAt page (lower ++ rest) j := by
  induction rest generalizing lower with
  | nil =>
    refine iff_of_false (by simp [firstBadEntry]) fun ⟨le, ⟨e, at_, _⟩, _⟩ => ?_
    rw [List.append_nil, List.getElem?_eq_none le] at at_
    cases at_
  | cons e rest ih =>
    have here : FailsAt page (lower ++ e :: rest) lower.length ↔ e.fails lower page = true := by
      simp [FailsAt]
    have shift : lower ++ e :: rest = (lower ++ [e]) ++ rest := by simp
    rw [firstBadEntry]
    split
    next bad =>
      rw [Option.some.injEq]
      refine ⟨fun same => ?_, fun ⟨le, _, first⟩ => ?_⟩
      · subst same
        exact ⟨le_rfl, here.mpr bad, fun j low high => absurd low (Nat.not_le.mpr high)⟩
      · exact Nat.le_antisymm le (Nat.not_lt.mp fun later => first _ le_rfl later (here.mpr bad))
    next good =>
      have passes : ¬ FailsAt page (lower ++ e :: rest) lower.length := fun fails => good (here.mp fails)
      rw [ih, ← shift, List.length_append, List.length_singleton]
      refine ⟨fun ⟨le, fails, first⟩ => ⟨by omega, fails, fun j low high => ?_⟩,
        fun ⟨le, fails, first⟩ => ⟨?_, fails, fun j low high => first j (by omega) high⟩⟩
      · rcases Nat.eq_or_lt_of_le low with same | later
        · exact same ▸ passes
        · exact first j later high
      · rcases Nat.eq_or_lt_of_le le with same | later
        · exact absurd fails (same ▸ passes)
        · exact later

theorem firstBadEntry_eq_none_iff {page : Nat} {table : List WindowEntry} :
    firstBadEntry page [] table = none ↔ ∀ k, ¬ FailsAt page table k := by
  constructor
  · intro none k fails
    classical
    have first : firstBadEntry page [] table = some (Nat.find ⟨k, fails⟩) :=
      firstBadEntry_eq_some_iff.mpr ⟨Nat.zero_le _, Nat.find_spec ⟨k, fails⟩, fun j _ before => Nat.find_min _ before⟩
    rw [none] at first
    cases first
  · intro passes
    cases first : firstBadEntry page [] table with
    | none => rfl
    | some k =>
      obtain ⟨_, fails, _⟩ := firstBadEntry_eq_some_iff.mp first
      exact absurd fails (passes k)

theorem failsAt_iff {page k : Nat} {table : List WindowEntry} : FailsAt page table k ↔
    ∃ e, table[k]? = some e ∧ e.enabled = true ∧ (e.failsAlone page = true ∨
      ∃ j d, j < k ∧ table[j]? = some d ∧ d.enabled = true ∧ e.failsAgainst d = true) := by
  have lower (d : WindowEntry) : d ∈ table.take k ↔ ∃ j, j < k ∧ table[j]? = some d := by
    rw [List.mem_iff_getElem?]
    refine exists_congr fun j => ?_
    rw [List.getElem?_take]
    split
    next before => simp [before]
    next after => simp [after]
  simp only [FailsAt, WindowEntry.fails, Bool.and_eq_true, Bool.or_eq_true, List.any_eq_true, lower]
  refine exists_congr fun e => and_congr_right fun _ => and_congr_right fun _ => or_congr_right ?_
  constructor
  · rintro ⟨d, ⟨j, before, at_⟩, on, fails⟩
    exact ⟨j, d, before, at_, on, fails⟩
  · rintro ⟨j, d, before, at_, on, fails⟩
    exact ⟨d, ⟨j, before, at_⟩, on, fails⟩

/-! ## The conditions of R11 -/

/-- The kinds by their codes (11.2). -/
theorem WindowEntry.kindOf_iff (e : WindowEntry) :
    (e.kind = 1 ↔ e.kindOf = .audioIn) ∧ (e.kind = 2 ↔ e.kindOf = .picture) ∧ (e.kind = 3 ↔ e.kindOf = .coded) ∧
    (e.kind = 4 ↔ e.kindOf = .busOut) ∧ (e.kind = 5 ↔ e.kindOf = .label) ∧ (e.kind = 6 ↔ e.kindOf = .report) ∧
    (e.kind = 7 ↔ e.kindOf = .meas) := by
  unfold WindowEntry.kindOf WindowKind.ofCode
  simp only [← BitVec.toNat_inj]
  split
  all_goals simp_all

theorem WindowEntry.unknownKind_iff (e : WindowEntry) : (WindowKind.ofCode e.kind.toNat).isNone = true ↔ 7 < e.kind.toNat := by
  unfold WindowKind.ofCode
  split
  case h_9 h0 h1 h2 h3 h4 h5 h6 h7 =>
    refine iff_of_true rfl ?_
    have : e.kind.toNat ≠ 0 ∧ e.kind.toNat ≠ 1 ∧ e.kind.toNat ≠ 2 ∧ e.kind.toNat ≠ 3 ∧ e.kind.toNat ≠ 4 ∧
      e.kind.toNat ≠ 5 ∧ e.kind.toNat ≠ 6 ∧ e.kind.toNat ≠ 7 := ⟨h0, h1, h2, h3, h4, h5, h6, h7⟩
    omega
  all_goals simp_all

theorem WindowEntry.owned_iff (e : WindowEntry) :
    (e.kind = 4 ∨ e.kind = 5 ∨ e.kind = 6 ∨ e.kind = 7) ↔ e.kindOf.owned = true := by
  obtain ⟨-, -, -, h4, h5, h6, h7⟩ := e.kindOf_iff
  rw [h4, h5, h6, h7]
  cases e.kindOf <;> simp [WindowKind.owned]

theorem WindowEntry.badObject_iff (e : WindowEntry) : e.kindOf.badObject e.object.toNat = true ↔
    (e.kind = 1 ∧ 57 < e.object.toNat) ∨ (e.kind = 2 ∧ 7 < e.object.toNat) ∨ (e.kind = 3 ∧ 3 < e.object.toNat) ∨
      (e.kindOf.owned = true ∧ e.object.toNat ≠ 0) := by
  obtain ⟨h1, h2, h3, -⟩ := e.kindOf_iff
  rw [h1, h2, h3]
  cases e.kindOf <;> simp [WindowKind.badObject, WindowKind.owned]

theorem WindowEntry.badSize_iff (e : WindowEntry) : e.badSize = true ↔
    (e.kind = 1 ∧ 57 < e.object.toNat + 2 * e.size.toNat - 1) ∨
    (e.kind = 2 ∧ (e.perFrame = 0 ∨ 4096 < e.perFrame.toNat ∨ e.size.toNat < e.perFrame.toNat)) ∨
    (e.kind = 3 ∧ e.size.toNat = 1) ∨ (e.kind = 4 ∧ e.size.toNat ≠ 8) ∨ (e.kind = 5 ∧ 16 < e.size.toNat) ∨
    (e.kind = 6 ∧ 8 < e.size.toNat) ∨ (e.kind = 7 ∧ e.size.toNat ≠ 1) := by
  obtain ⟨h1, h2, h3, h4, h5, h6, h7⟩ := e.kindOf_iff
  rw [h1, h2, h3, h4, h5, h6, h7]
  unfold WindowEntry.badSize
  cases e.kindOf <;> simp [or_assoc]

theorem overlap_iff (a b c d : Nat) : overlap a b c d = true ↔ a < d ∧ c < b := by simp [overlap]

theorem WindowEntry.failsAlone_iff (e : WindowEntry) (page : Nat) : e.failsAlone page = true ↔
    7 < e.kind.toNat ∨ 2 ^ 36 < e.limit ∨ e.first % 4096 ≠ 0 ∨ e.kindOf.badObject e.object.toNat = true ∨
      e.badSize = true ∨ (e.kindOf.owned = true ∧ e.first < page + 8192 ∧ page < e.limit) := by
  simp only [WindowEntry.failsAlone, Bool.or_eq_true, Bool.and_eq_true, overlap_iff, e.unknownKind_iff,
    decide_eq_true_eq, bne_iff_ne, or_assoc]
  rfl

/-- Two entries of one kind, for a kind that has a code of its own. -/
theorem WindowEntry.kindOf_same_iff {e d : WindowEntry} (h : e.kindOf.owned = true ∨ e.kind = 2 ∨ e.kind = 3) :
    e.kindOf = d.kindOf ↔ d.kind = e.kind := by
  refine ⟨fun same => ?_, fun same => by rw [WindowEntry.kindOf, WindowEntry.kindOf, same]⟩
  have also {k : WindowKind} {code : BitVec 8} (he : e.kind = code ↔ e.kindOf = k) (hd : d.kind = code ↔ d.kindOf = k)
      (own : e.kind = code) : d.kind = e.kind := (hd.mpr (same ▸ he.mp own)).trans own.symm
  obtain ⟨-, e2, e3, e4, e5, e6, e7⟩ := e.kindOf_iff
  obtain ⟨-, d2, d3, d4, d5, d6, d7⟩ := d.kindOf_iff
  rcases h with owned | own | own
  · rcases e.owned_iff.mpr owned with own | own | own | own
    · exact also e4 d4 own
    · exact also e5 d5 own
    · exact also e6 d6 own
    · exact also e7 d7 own
  · exact also e2 d2 own
  · exact also e3 d3 own

theorem WindowEntry.failsAgainst_iff (e d : WindowEntry) : e.failsAgainst d = true ↔
    (e.kind = 1 ∧ d.kind = 1 ∧ e.object.toNat < d.object.toNat + 2 * d.size.toNat ∧
      d.object.toNat < e.object.toNat + 2 * e.size.toNat) ∨
    ((e.kind = 2 ∨ e.kind = 3) ∧ d.kind = e.kind ∧ d.object = e.object) ∨
    (e.kindOf.owned = true ∧ d.kind = e.kind) ∨
    ((e.kindOf.owned = true ∨ d.kindOf.owned = true) ∧ e.first < d.limit ∧ d.first < e.limit) := by
  obtain ⟨h1, h2, h3, -⟩ := e.kindOf_iff
  obtain ⟨g1, -⟩ := d.kindOf_iff
  have audio : (e.kindOf = .audioIn ∧ e.kindOf = d.kindOf) ↔ (e.kind = 1 ∧ d.kind = 1) := by
    rw [h1, g1]
    exact ⟨fun ⟨own, same⟩ => ⟨own, same ▸ own⟩, fun ⟨own, other⟩ => ⟨own, own.trans other.symm⟩⟩
  have shared : ((e.kindOf = .picture ∨ e.kindOf = .coded) ∧ e.kindOf = d.kindOf) ↔
      ((e.kind = 2 ∨ e.kind = 3) ∧ d.kind = e.kind) := by
    rw [← h2, ← h3]
    exact and_congr_right fun own => WindowEntry.kindOf_same_iff (.inr own)
  have owned : (e.kindOf.owned = true ∧ e.kindOf = d.kindOf) ↔ (e.kindOf.owned = true ∧ d.kind = e.kind) :=
    and_congr_right fun own => WindowEntry.kindOf_same_iff (.inl own)
  unfold WindowEntry.failsAgainst
  simp only [Bool.or_eq_true, Bool.and_eq_true, beq_iff_eq, overlap_iff, audio, shared, owned]
  rw [or_assoc, or_assoc, and_assoc, and_assoc, eq_comm (a := e.object)]

end Sys2Proof.Machine

open Sys2Proof Sys2Proof.Machine

/-- Settles O49: a gain by the share of the way, which mirrors itself, and an output by the distance to it. -/
theorem gainsAndOutputsFollowTheArithmetic : Obligations.GainsAndOutputsFollowTheArithmetic := by
  refine ⟨fun q i j h => ⟨rfl, fun x => rfl, q.gainAt_last, q.gainAt_rising h, q.gainAt_falling h⟩, ?_⟩
  intro a y
  obtain ⟨nearest, tie⟩ := roundOutput_nearest a.value.toInt
  refine ⟨nearest, tie, a.output_toInt.trans (saturate_eq _), ?_⟩
  rw [Accumulator.saturates, bne_iff_ne, saturate_eq]
  change (if y < -8388608 then -8388608 else if 8388607 < y then 8388607 else y) ≠ y ↔ _
  split_ifs <;> omega

/-- Settles O50: the entry named by induction on the table, the conditions kind by kind, and two entries by the
conditions of the later one. -/
theorem validTableKeepsOwnedWindowsApart : Obligations.ValidTableKeepsOwnedWindowsApart := by
  refine ⟨fun bs k => ?fields, ?named, fun page table none => ?apart⟩
  case fields =>
    intro e o
    have entry : e = WindowEntry.ofBytes (slice bs o 16) := by simp [e, windowTable, o]
    rw [entry]
    have read (k n : Nat) (h : k + n ≤ 16 := by omega) : field (slice bs o 16) k n = field bs (o + k) n :=
      field_slice bs o 16 h
    exact ⟨holds_of_read (w := 64) rfl (read 0 8), holds_of_read (w := 32) rfl (read 8 4),
      holds_of_read (w := 8) rfl (read 12 1), holds_of_read (w := 8) rfl (read 13 1),
      holds_of_read (w := 16) rfl (read 14 2)⟩
  case named =>
    intro page table enabled owned pages object first limit failsAlone failsAgainst fails
    have alone (e : WindowEntry) : e.failsAlone page = true ↔ failsAlone e := by
      rw [e.failsAlone_iff, e.badObject_iff, e.badSize_iff, ← e.owned_iff]
      simp only [failsAlone, or_assoc]
      rfl
    have against (e d : WindowEntry) (on_e : enabled e) (on_d : enabled d) :
        e.failsAgainst d = true ↔ failsAgainst e d := by
      rw [WindowEntry.failsAgainst_iff, ← e.owned_iff, ← d.owned_iff]
      refine or_congr (and_congr_right fun _ => and_congr_right fun _ => ?_) Iff.rfl
      have some_e : 0 < e.size.toNat := Nat.pos_of_ne_zero fun zero => on_e.2 (BitVec.eq_of_toNat_eq zero)
      have some_d : 0 < d.size.toNat := Nat.pos_of_ne_zero fun zero => on_d.2 (BitVec.eq_of_toNat_eq zero)
      constructor
      · intro ⟨before, after⟩
        refine ⟨max e.object.toNat d.object.toNat, ?_⟩
        simp only [object, pages]
        omega
      · rintro ⟨source, h⟩
        simp only [object, pages] at h
        omega
    have same (k : Nat) : FailsAt page table k ↔ fails k := by
      rw [failsAt_iff]
      refine exists_congr fun e => and_congr_right fun _ => ?_
      rw [e.enabled_iff, alone e]
      refine and_congr_right fun on_e => or_congr_right ?_
      refine exists_congr fun j => exists_congr fun d => and_congr_right fun _ => and_congr_right fun _ => ?_
      rw [d.enabled_iff]
      exact and_congr_right fun on_d => against e d on_e on_d
    refine ⟨fun k => ?_, ?_⟩
    · rw [firstBadEntry_eq_some_iff, List.nil_append]
      simp only [same, List.length_nil, Nat.zero_le, true_and, forall_const]
    · rw [firstBadEntry_eq_none_iff]
      simp only [same]
  case apart =>
    have passes (k : Nat) : ¬ FailsAt page table k := firstBadEntry_eq_none_iff.mp none k
    refine ⟨fun e mem on => ?_, fun i j d e at_i at_j before on_d on_e => ?_⟩
    · obtain ⟨k, at_⟩ := List.mem_iff_getElem?.mp mem
      have sound : ¬ e.failsAlone page = true := fun fails =>
        passes k (failsAt_iff.mpr ⟨e, at_, on, .inl fails⟩)
      rw [e.failsAlone_iff, e.badObject_iff] at sound
      push Not at sound
      obtain ⟨-, high, aligned, object, -, apart⟩ := sound
      refine ⟨aligned, high, fun owned => ⟨?_, ?_⟩⟩
      · exact BitVec.eq_of_toNat_eq (object.2.2.2 owned)
      · have := apart owned
        omega
    · have sound : ¬ e.failsAgainst d = true := fun fails =>
        passes j (failsAt_iff.mpr ⟨e, at_j, on_e, .inr ⟨i, d, before, at_i, on_d, fails⟩⟩)
      rw [WindowEntry.failsAgainst_iff] at sound
      push Not at sound
      obtain ⟨-, unshared, single, apart⟩ := sound
      refine ⟨fun owned => ?_, fun kinds => ?_, fun kinds kind => ?_⟩
      · have := apart owned.symm
        omega
      · rw [Bool.eq_false_iff]
        intro owned
        have owned' : e.kindOf.owned = true := kinds ▸ owned
        exact single owned' ((WindowEntry.kindOf_same_iff (.inl owned')).mp kinds.symm)
      · obtain ⟨-, h2, h3, -⟩ := e.kindOf_iff
        have own : e.kind = 2 ∨ e.kind = 3 := by
          rw [h2, h3, ← kinds]
          exact kind.symm
        exact unshared own ((WindowEntry.kindOf_same_iff (.inr own)).mp kinds.symm)

end

section
/-! SUPPORT. Contribution frames: bytes in line order, the CRC, and the fields of a built frame (R177, R178, R180,
R188). -/

set_option Elab.async false

namespace Sys2Proof.Machine

/-! ## Big-endian values -/

theorem beBytes_length (n v : Nat) : (beBytes n v).length = n := by
  rw [beBytes, List.length_reverse, leBytes_length]

theorem ofBE_beBytes (n v : Nat) : ofBE (beBytes n v) = v % 256 ^ n := by
  rw [ofBE, beBytes, List.reverse_reverse, ofLE_leBytes]

theorem ofBE_beBytes_of_lt {n v : Nat} (h : v < 256 ^ n) : ofBE (beBytes n v) = v := by
  rw [ofBE_beBytes, Nat.mod_eq_of_lt h]

/-- Bytes of one length are told apart by their value. -/
theorem ofLE_injective {bs bs' : List Byte} (length : bs.length = bs'.length) (h : ofLE bs = ofLE bs') : bs = bs' := by
  induction bs generalizing bs' with
  | nil => exact (List.eq_nil_of_length_eq_zero length.symm).symm
  | cons b bs ih =>
    cases bs' with
    | nil => cases length
    | cons b' bs' =>
      have low := b.isLt
      have low' := b'.isLt
      rw [ofLE, ofLE] at h
      have first : b = b' := BitVec.eq_of_toNat_eq (by omega)
      rw [first, ih (Nat.succ.inj length) (by omega)]

theorem ofBE_injective {bs bs' : List Byte} (length : bs.length = bs'.length) (h : ofBE bs = ofBE bs') : bs = bs' :=
  List.reverse_injective (ofLE_injective (by simpa using length) h)

/-! ## Segments -/

/-- A segment stands where the segments before it end. -/
theorem slice_flatten {segments : List (List Byte)} {k offset n : Nat} {x : List Byte} (at_ : segments[k]? = some x)
    (place : ((segments.map List.length).take k).sum = offset) (length : x.length = n) :
    slice segments.flatten offset n = x := by
  subst place length
  induction segments generalizing k with
  | nil => cases at_
  | cons s segments ih =>
    rw [List.flatten_cons]
    cases k with
    | zero =>
      cases at_
      exact List.take_left ..
    | succ k =>
      rw [List.map_cons, List.take_succ_cons, List.sum_cons, slice, ← List.drop_drop, List.drop_left]
      exact ih at_

theorem slice_take {bs : List Byte} {offset n m : Nat} (h : n ≤ m) :
    slice bs offset n = (slice bs offset m).take n := by
  rw [slice, slice, List.take_take, Nat.min_eq_left h]

/-! ## Bits in line order (R177) -/

theorem ofBits_byteBits (b : Byte) : BitVec.ofNat 8 (ofBits (byteBits b)) = b := by
  revert b
  decide

theorem lineBits_cons (b : Byte) (bs : List Byte) : lineBits (b :: bs) = byteBits b ++ lineBits bs := List.flatMap_cons

theorem lineBits_length (bs : List Byte) : (lineBits bs).length = 8 * bs.length := by
  induction bs with
  | nil => rfl
  | cons b bs ih =>
    rw [lineBits_cons, List.length_append, ih, List.length_cons]
    change 8 + 8 * bs.length = _
    omega

theorem bytesOfBits_lineBits (bs : List Byte) : bytesOfBits (lineBits bs) = bs := by
  induction bs with
  | nil => rfl
  | cons b bs ih =>
    have head : bytesOfBits (byteBits b ++ lineBits bs) =
        BitVec.ofNat 8 (ofBits (byteBits b)) :: bytesOfBits (lineBits bs) := rfl
    rw [lineBits_cons, head, ofBits_byteBits, ih]

theorem byteBits_getElem? (b : Byte) {j : Nat} (h : j < 8) : (byteBits b)[j]? = some (b.getLsbD (7 - j)) := by
  have cases8 : j = 0 ∨ j = 1 ∨ j = 2 ∨ j = 3 ∨ j = 4 ∨ j = 5 ∨ j = 6 ∨ j = 7 := by omega
  rcases cases8 with rfl | rfl | rfl | rfl | rfl | rfl | rfl | rfl <;> rfl

theorem lineBits_getElem? (bs : List Byte) (i : Nat) {j : Nat} (h : j < 8) :
    (lineBits bs)[8 * i + j]? = bs[i]?.map (·.getLsbD (7 - j)) := by
  induction bs generalizing i with
  | nil => rfl
  | cons b bs ih =>
    rw [lineBits_cons]
    cases i with
    | zero =>
      rw [Nat.mul_zero, Nat.zero_add, List.getElem?_append_left h, byteBits_getElem? b h]
      rfl
    | succ i =>
      have place : 8 * (i + 1) + j = 8 + (8 * i + j) := by ring
      rw [place, List.getElem?_append_right (show (byteBits b).length ≤ 8 + (8 * i + j) from Nat.le_add_right ..)]
      change (lineBits bs)[8 + (8 * i + j) - 8]? = _
      rw [Nat.add_sub_cancel_left, ih i]
      rfl

/-! ## The CRC (R180) -/

/-- A bit that is not the register's top bit brings the polynomial in. -/
theorem crcBit_eq (reg : BitVec 32) (b : Bool) :
    crcBit reg b = if reg.msb = b then reg <<< 1 else (reg <<< 1) ^^^ 0x04C11DB7 := by
  unfold crcBit
  cases reg.msb <;> cases b <;> rfl

/-- The bytes of a 32-bit value, most significant first. -/
theorem ofBE_bytes32 (x : BitVec 32) :
    ofBE [x.extractLsb' 24 8, x.extractLsb' 16 8, x.extractLsb' 8 8, x.extractLsb' 0 8] = x.toNat := by
  have bound := x.isLt
  simp only [ofBE, List.reverse_cons, List.reverse_nil, List.nil_append, List.cons_append, ofLE,
    BitVec.extractLsb'_toNat, Nat.shiftRight_eq_div_pow]
  omega

/-! ## Built frames (R177, R178) -/

/-- The flags byte of a frame: its kind and its flags. -/
def frameFlags (kind : Nat) (unlocked isPartial key last : Bool) : Nat :=
  16 * kind + 8 * bit unlocked + 4 * bit isPartial + 2 * bit key + bit last

/-- What stands before the CRC of a frame, field by field. -/
def frameSegments (kind : Nat) (unlocked isPartial key last : Bool) (line : LineId) (sequence : Count16)
    (audioCount : Count32) (tag : Nat) (position : Count32) (payload : List Byte) : List (List Byte) :=
  [beBytes 2 Config.syncWord, leBytes 1 (frameFlags kind unlocked isPartial key last), leBytes 1 line.val,
    beBytes 2 sequence.toNat, beBytes 2 audioCount.toNat, beBytes 2 tag, beBytes 2 payload.length,
    beBytes 4 position.toNat, padTo 508 payload]

theorem frameSegments_lengths (kind : Nat) (unlocked isPartial key last : Bool) (line : LineId) (sequence : Count16)
    (audioCount : Count32) (tag : Nat) (position : Count32) {payload : List Byte} (short : payload.length ≤ 508) :
    (frameSegments kind unlocked isPartial key last line sequence audioCount tag position payload).map List.length =
      [2, 1, 1, 2, 2, 2, 2, 4, 508] := by
  have area : (padTo 508 payload).length = 508 := by
    rw [padTo, List.length_append, List.length_replicate]
    omega
  simp only [frameSegments, List.map_cons, List.map_nil, beBytes_length, leBytes_length, area]

theorem frameBytes_eq (kind : Nat) (unlocked isPartial key last : Bool) (line : LineId) (sequence : Count16)
    (audioCount : Count32) (tag : Nat) (position : Count32) (payload : List Byte) :
    let segments := frameSegments kind unlocked isPartial key last line sequence audioCount tag position payload
    frameBytes kind unlocked isPartial key last line sequence audioCount tag position payload =
      (segments ++ [beBytes 4 (crc32 segments.flatten).toNat]).flatten := by
  simp [frameBytes, frameSegments, frameFlags]
  rfl

theorem frameFlags_eq (kind : Nat) (unlocked isPartial key last : Bool) :
    frameFlags kind unlocked isPartial key last = 16 * kind + (if unlocked then 8 else 0) +
      (if isPartial then 4 else 0) + (if key then 2 else 0) + (if last then 1 else 0) := by
  cases unlocked <;> cases isPartial <;> cases key <;> cases last <;> rfl

theorem frameFlags_bounds (kind : Nat) (unlocked isPartial key last : Bool) :
    16 * kind ≤ frameFlags kind unlocked isPartial key last ∧
      frameFlags kind unlocked isPartial key last < 16 * (kind + 1) := by
  rw [frameFlags_eq]
  cases unlocked <;> cases isPartial <;> cases key <;> cases last <;> simp <;> omega

end Sys2Proof.Machine

open Sys2Proof Sys2Proof.Machine

/-- Settles O48: a built frame is its segments, each read back where it stands, and its CRC. -/
theorem everyBuiltFrameIsGood : Obligations.EveryBuiltFrameIsGood := by
  refine ⟨?built, ?judged, by decide +kernel⟩
  case built =>
    intro kind unlocked isPartial key last line sequence audioCount tag position payload kind' tag' short bs
    let segments := frameSegments kind unlocked isPartial key last line sequence audioCount tag position payload
    let crc := beBytes 4 (crc32 segments.flatten).toNat
    have parts : bs = (segments ++ [crc]).flatten := frameBytes_eq ..
    have lengths : (segments ++ [crc]).map List.length = [2, 1, 1, 2, 2, 2, 2, 4, 508, 4] := by
      rw [List.map_append, frameSegments_lengths _ _ _ _ _ _ _ _ _ _ short, List.map_singleton, beBytes_length]
      rfl
    have body : segments.flatten.length = 524 := by
      rw [List.length_flatten, frameSegments_lengths _ _ _ _ _ _ _ _ _ _ short]
      rfl
    have segment (k offset : Nat) {n : Nat} {x : List Byte} (at_ : (segments ++ [crc])[k]? = some x)
        (length : x.length = n) (place : ([2, 1, 1, 2, 2, 2, 2, 4, 508, 4].take k).sum = offset) :
        slice bs offset n = x := by
      rw [parts]
      exact slice_flatten at_ (by rw [lengths, place]) length
    have flags : byteAt bs 2 = frameFlags kind unlocked isPartial key last := by
      have bounds := frameFlags_bounds kind unlocked isPartial key last
      rw [byteAt, field, segment 1 2 rfl (leBytes_length ..) rfl, ofLE_leBytes]
      omega
    have value (k offset : Nat) {n v : Nat} (at_ : (segments ++ [crc])[k]? = some (beBytes n v))
        (place : ([2, 1, 1, 2, 2, 2, 2, 4, 508, 4].take k).sum = offset) : ofBE (slice bs offset n) = v % 256 ^ n := by
      rw [segment k offset at_ (beBytes_length ..) place, ofBE_beBytes]
    refine ⟨?length, ?good, ?kind, flags.trans (frameFlags_eq ..), ?line, ?size, ?payload, ?sequence, ?audio, ?tag,
      ?position, bytesOfBits_lineBits bs⟩
    case length =>
      rw [parts, List.length_flatten, lengths]
      rfl
    case good =>
      have covered : bs.take 524 = segments.flatten := by
        rw [parts, List.flatten_append, ← body]
        exact List.take_left ..
      have sync : ofBE (slice bs 0 2) = Config.syncWord := value 0 0 rfl rfl
      have check : ofBE (slice bs 524 4) = (crc32 (bs.take 524)).toNat := by
        rw [covered, value 9 524 rfl rfl]
        exact Nat.mod_eq_of_lt (BitVec.isLt _)
      rw [goodFrame, sync, check, beq_self_eq_true, beq_self_eq_true]
      rfl
    case kind =>
      have bounds := frameFlags_bounds kind unlocked isPartial key last
      rw [frameKind, flags]
      omega
    case line =>
      have three := line.isLt
      rw [byteAt, field, segment 2 3 rfl (leBytes_length ..) rfl, ofLE_leBytes]
      exact Nat.mod_eq_of_lt (by omega)
    case size =>
      rw [framePayloadLength, value 6 10 rfl rfl]
      exact Nat.mod_eq_of_lt (by omega)
    case payload =>
      have area : slice bs 16 508 = padTo 508 payload :=
        segment 8 16 rfl (by rw [padTo, List.length_append, List.length_replicate]; omega) rfl
      rw [slice_take short, area, padTo]
      exact List.take_left ..
    case sequence =>
      rw [value 3 4 rfl rfl]
      exact Nat.mod_eq_of_lt sequence.isLt
    case audio => exact value 4 6 rfl rfl
    case tag =>
      rw [value 5 8 rfl rfl]
      exact Nat.mod_eq_of_lt tag'
    case position =>
      rw [value 7 12 rfl rfl]
      exact Nat.mod_eq_of_lt position.isLt
  case judged =>
    intro bs register crc
    refine ⟨lineBits_length bs, bytesOfBits_lineBits bs, fun i j h => lineBits_getElem? bs i h, ?_, fun length => ?_⟩
    · have same : crcBit = fun (reg : BitVec 32) b => if reg.msb = b then reg <<< 1 else (reg <<< 1) ^^^ 0x04C11DB7 :=
        funext fun reg => funext fun b => crcBit_eq reg b
      rw [crc32, same]
    · have sync : ofBE (bs.take 2) = Config.syncWord ↔ bs.take 2 = [0xB5, 0x2E] := by
        refine ⟨fun same => ofBE_injective ?_ (same.trans rfl), fun same => by rw [same]; rfl⟩
        rw [List.length_take, length]
        rfl
      have rest : (bs.drop 524).length = 4 := by rw [List.length_drop, length]
      have tail : slice bs 524 4 = bs.drop 524 := List.take_of_length_le rest.le
      have check : ofBE (bs.drop 524) = crc.toNat ↔ bs.drop 524 =
          [crc.extractLsb' 24 8, crc.extractLsb' 16 8, crc.extractLsb' 8 8, crc.extractLsb' 0 8] := by
        rw [← ofBE_bytes32]
        exact ⟨fun same => ofBE_injective rest same, fun same => congrArg ofBE same⟩
      rw [goodFrame, Bool.and_eq_true, beq_iff_eq, beq_iff_eq, tail]
      exact and_congr sync check

end

section
/-! SUPPORT. The line code: what the coder makes of bits, and what a receiver makes of the symbols (R182, R183,
R186). -/

set_option Elab.async false

namespace Sys2Proof.Machine

/-! ## The last of a list -/

theorem lastOf_eq {α : Type} (n : Nat) (xs : List α) : lastOf n xs = (xs.reverse.take n).reverse := by
  rw [lastOf, List.reverse_take, List.length_reverse, List.reverse_reverse]

theorem lastOf_lastOf_append {α : Type} (n : Nat) (xs ys : List α) :
    lastOf n (lastOf n xs ++ ys) = lastOf n (xs ++ ys) := by
  simp only [lastOf_eq, List.reverse_append, List.reverse_reverse, List.take_append, List.take_take]
  rw [Nat.min_eq_left (Nat.sub_le ..)]

theorem lastOf_append_of_length {α : Type} {n : Nat} (xs : List α) {ys : List α} (h : ys.length = n) :
    lastOf n (xs ++ ys) = ys := by
  rw [lastOf, List.length_append, h, Nat.add_sub_cancel, List.drop_left]

theorem lastOf_length_le {α : Type} (n : Nat) (xs : List α) : (lastOf n xs).length ≤ n := by
  rw [lastOf, List.length_drop]
  omega

/-! ## The receiver (R186) -/

/-- The bits decided and those still held are these, with this many violations and this last polarity, and no more is
held than a violation can reach. -/
structure Heard (code : ZeroRun) (x : List Bool × Receiver) (bits : List Bool) (violations : Nat) (last : Bool) :
    Prop where
  bits : x.1 ++ x.2.undecided.map (·.bit) = bits
  violations : x.2.violationsDue = violations
  last : x.2.lastPositive = last
  short : x.2.undecided.length ≤ code.window

/-- Deciding moves bits from those held to those decided, and keeps the last ones. -/
theorem decide_heard {code : ZeroRun} {decided : List Bool} {r : Receiver} {bits : List Bool} {v : Nat} {p : Bool}
    (h : decided ++ r.undecided.map (·.bit) = bits) (violations : r.violationsDue = v) (last : r.lastPositive = p) :
    Heard code (decided ++ (r.decide code).1, (r.decide code).2) bits v p ∧
      (r.decide code).2.undecided = lastOf code.window r.undecided where
  left :=
    { bits := by
        rw [← h, Receiver.decide]
        dsimp only
        rw [List.append_assoc, ← List.map_append, List.take_append_drop]
      violations := violations
      last := last
      short := lastOf_length_le .. }
  right := rfl

theorem heard_space {code : ZeroRun} {x : List Bool × Receiver} {bits : List Bool} {v : Nat} {p : Bool}
    (h : Heard code x bits v p) : Heard code (decodeSymbol code x .space) (bits ++ [false]) v p ∧
      (decodeSymbol code x .space).2.undecided =
        lastOf code.window (x.2.undecided ++ [{ symbol := .space, bit := false }]) :=
  decide_heard (r := x.2.decode code .space)
    (by rw [← h.bits, Receiver.decode, List.map_append, List.append_assoc]; rfl) h.violations h.last

theorem heard_mark {code : ZeroRun} {x : List Bool × Receiver} {bits : List Bool} {v : Nat} {p : Bool}
    (h : Heard code x bits v p) : Heard code (decodeSymbol code x (.mark (!p))) (bits ++ [true]) v (!p) ∧
      (decodeSymbol code x (.mark (!p))).2.undecided =
        lastOf code.window (x.2.undecided ++ [{ symbol := .mark (!p), bit := true }]) := by
  have opposite : ¬ (!p) = x.2.lastPositive := by
    rw [h.last]
    cases p <;> exact Bool.noConfusion
  have decoded : x.2.decode code (.mark (!p)) = { x.2 with
      spaces := 0, lastPositive := !p, undecided := x.2.undecided ++ [{ symbol := .mark (!p), bit := true }] } := by
    rw [Receiver.decode]
    exact if_neg opposite
  have heard := decide_heard (code := code) (decided := x.1) (r := x.2.decode code (.mark (!p)))
    (bits := bits ++ [true]) (v := v) (p := !p)
    (by rw [decoded, ← h.bits, List.map_append, List.append_assoc]; rfl) (by rw [decoded]; exact h.violations)
    (by rw [decoded])
  rw [decoded] at heard
  rw [decodeSymbol, decoded]
  exact heard

theorem heard_spaces {code : ZeroRun} {x : List Bool × Receiver} {bits : List Bool} {v : Nat} {p : Bool}
    (h : Heard code x bits v p) (k : Nat) :
    let y := (List.replicate k Symbol.space).foldl (decodeSymbol code) x
    Heard code y (bits ++ List.replicate k false) v p ∧
      y.2.undecided = lastOf code.window (x.2.undecided ++ List.replicate k { symbol := .space, bit := false }) := by
  induction k with
  | zero =>
    have all : lastOf code.window x.2.undecided = x.2.undecided := by
      rw [lastOf, Nat.sub_eq_zero_of_le h.short, List.drop_zero]
    simpa [all] using h
  | succ k ih =>
    obtain ⟨heard, held⟩ := ih
    intro y
    have last : y = decodeSymbol code ((List.replicate k Symbol.space).foldl (decodeSymbol code) x) .space := by
      simp only [y, List.replicate_succ', List.foldl_append, List.foldl_cons, List.foldl_nil]
    obtain ⟨heard', held'⟩ := heard_space heard
    rw [held, lastOf_lastOf_append, List.append_assoc, ← List.replicate_succ'] at held'
    rw [List.append_assoc, ← List.replicate_succ'] at heard'
    rw [last]
    exact ⟨heard', held'⟩

/-- A violation that completes a valid substitution turns what is held to zeros. -/
theorem heard_violation {code : ZeroRun} {x : List Bool × Receiver} {bits : List Bool} {v : Nat} {p : Bool}
    (h : Heard code x bits v p) (full : x.2.undecided.length = code.window)
    (valid : validSubstitution code x.2.undecided = true) :
    Heard code (decodeSymbol code x (.mark p)) (x.1 ++ List.replicate (code.window + 1) false) v p := by
  have own : x.2.before code = x.2.undecided := lastOf_append_of_length _ full
  have decoded : x.2.decode code (.mark p) = { x.2 with
      spaces := 0, recent := asZeros x.2.recent
      undecided := asZeros x.2.undecided ++ [{ symbol := .mark p, bit := false }] } := by
    rw [Receiver.decode]
    dsimp only
    rw [if_pos h.last.symm]
    exact if_pos (by rw [← own] at valid; exact valid)
  have zeros : (asZeros x.2.undecided).map (·.bit) = List.replicate code.window false := by
    rw [asZeros, List.map_map, ← full]
    exact List.map_const' ..
  have heard := decide_heard (code := code) (decided := x.1) (r := x.2.decode code (.mark p))
    (bits := x.1 ++ List.replicate (code.window + 1) false) (v := v) (p := p)
    (by rw [decoded, List.map_append, zeros, List.replicate_succ']; rfl) (by rw [decoded]; exact h.violations)
    (by rw [decoded]; exact h.last)
  exact heard.1

/-! ## Substitutions (R183) -/

theorem ZeroRun.length_of_ne_off {code : ZeroRun} (h : code ≠ .off) : code.length = code.window + 1 ∧ 2 ≤ code.window := by
  cases code
  case off => exact absurd rfl h
  all_goals exact ⟨rfl, by decide⟩

theorem decodeSymbols_append (code : ZeroRun) (r : Receiver) (xs ys : List Symbol) :
    decodeSymbols code r (xs ++ ys) = ys.foldl (decodeSymbol code) (decodeSymbols code r xs) := List.foldl_append

/-- With odd parity: all spaces, and a violation. -/
theorem heard_substitution_odd {code : ZeroRun} (on : code ≠ .off) {x : List Bool × Receiver} {bits : List Bool}
    {v : Nat} {p : Bool} (h : Heard code x bits v p) :
    Heard code ((List.replicate code.window Symbol.space ++ [Symbol.mark p]).foldl (decodeSymbol code) x)
      (bits ++ List.replicate code.length false) v p := by
  obtain ⟨long, -⟩ := ZeroRun.length_of_ne_off on
  obtain ⟨heard, held⟩ := heard_spaces h code.window
  rw [lastOf_append_of_length _ List.length_replicate] at held
  have decided := heard.bits
  rw [held, List.map_replicate] at decided
  have valid : validSubstitution code (List.replicate code.window { symbol := .space, bit := false }) = true := by
    cases code
    case off => exact absurd rfl on
    all_goals rfl
  have last := heard_violation heard (by rw [held, List.length_replicate]) (by rw [held]; exact valid)
  rw [List.append_cancel_right decided, ← long] at last
  rw [List.foldl_append]
  exact last

/-- With even parity: a mark of opposite polarity, spaces, and a violation. -/
theorem heard_substitution_even {code : ZeroRun} (on : code ≠ .off) {x : List Bool × Receiver} {bits : List Bool}
    {v : Nat} {p : Bool} (h : Heard code x bits v p) :
    Heard code ((Symbol.mark (!p) :: List.replicate (code.length - 2) Symbol.space ++ [Symbol.mark (!p)]).foldl
      (decodeSymbol code) x) (bits ++ List.replicate code.length false) v (!p) := by
  obtain ⟨long, two⟩ := ZeroRun.length_of_ne_off on
  obtain ⟨marked, first⟩ := heard_mark h
  obtain ⟨heard, held⟩ := heard_spaces marked (code.length - 2)
  rw [first, lastOf_lastOf_append, List.append_assoc, List.singleton_append,
    lastOf_append_of_length _ (by rw [List.length_cons, List.length_replicate]; omega)] at held
  have decided := heard.bits
  rw [held, List.map_cons, List.map_replicate, List.append_assoc bits, List.singleton_append] at decided
  have valid : validSubstitution code ({ symbol := .mark (!p), bit := true } ::
      List.replicate (code.length - 2) { symbol := .space, bit := false }) = true := by
    cases code
    case off => exact absurd rfl on
    all_goals rfl
  have last := heard_violation heard (by rw [held, List.length_cons, List.length_replicate]; omega)
    (by rw [held]; exact valid)
  rw [List.append_cancel_right decided, ← long] at last
  rw [List.foldl_append, List.foldl_cons]
  exact last

/-! ## Runs of spaces -/

/-- Marks, each behind a number of spaces. -/
def spacedMarks (cs : List (Nat × Bool)) : List Symbol :=
  cs.flatMap fun c => List.replicate c.1 .space ++ [.mark c.2]

theorem spacedMarks_append (cs ds : List (Nat × Bool)) : spacedMarks (cs ++ ds) = spacedMarks cs ++ spacedMarks ds :=
  List.flatMap_append

/-- Among marks each behind fewer than n spaces there is no run of n spaces. -/
theorem spacedMarks_ne {n : Nat} (run : 0 < n) {cs : List (Nat × Bool)}
    (h : ∀ c ∈ cs, c.1 < n) (before after : List Symbol) :
    spacedMarks cs ≠ before ++ List.replicate n .space ++ after := by
  induction cs generalizing before with
  | nil =>
    intro same
    have length := congrArg List.length same
    rw [List.length_append, List.length_append, List.length_replicate] at length
    change 0 = _ at length
    omega
  | cons c cs ih =>
    intro same
    have few := h c List.mem_cons_self
    have cons : spacedMarks (c :: cs) = List.replicate c.1 .space ++ .mark c.2 :: spacedMarks cs := by
      simp [spacedMarks]
    rw [cons] at same
    rcases Nat.lt_or_ge c.1 before.length with late | early
    · have rest := congrArg (List.drop (c.1 + 1)) same
      rw [List.append_assoc, List.drop_append_of_le_length late] at rest
      refine ih (fun d mem => h d (List.mem_cons_of_mem _ mem)) (before.drop (c.1 + 1)) ?_
      rw [List.append_assoc, ← rest, ← List.singleton_append, ← List.append_assoc]
      exact (List.drop_left' (by simp)).symm
    · have here := congrArg (·[c.1]?) same
      have mark : (List.replicate c.1 Symbol.space ++ .mark c.2 :: spacedMarks cs)[c.1]? = some (.mark c.2) := by
        rw [List.getElem?_append_right (by rw [List.length_replicate])]
        simp
      have space : (before ++ List.replicate n .space ++ after)[c.1]? = some Symbol.space := by
        rw [List.append_assoc, List.getElem?_append_right early,
          List.getElem?_append_left (by rw [List.length_replicate]; omega), List.getElem?_replicate, if_pos (by omega)]
      replace here := mark.symm.trans (here.trans space)
      cases here

/-! ## The coder (R182, R183) -/

theorem Coder.take_true (code : ZeroRun) (c : Coder) : c.take code true =
    { lastPositive := !c.lastPositive, odd := !c.odd, pending := 0
      out := c.out ++ List.replicate c.pending .space ++ [.mark (!c.lastPositive)] } := rfl

theorem Coder.take_false_off (c : Coder) : c.take .off false =
    { c with pending := 0, out := c.out ++ List.replicate (c.pending + 1) .space } := rfl

theorem Coder.take_false_pending {code : ZeroRun} (on : code ≠ .off) {c : Coder} (room : c.pending + 1 < code.length) :
    c.take code false = { c with pending := c.pending + 1 } := by
  change c.takeZero code = _
  rw [Coder.takeZero, if_neg on, if_pos room]

theorem Coder.take_false_substitution {code : ZeroRun} (on : code ≠ .off) {c : Coder}
    (full : code.length ≤ c.pending + 1) : c.take code false =
      { lastPositive := if c.odd then c.lastPositive else !c.lastPositive
        odd := false
        pending := 0
        out := c.out ++ List.replicate (c.pending + 1 - code.length) .space ++ c.substitution code.length } := by
  change c.takeZero code = _
  rw [Coder.takeZero, if_neg on, if_neg (Nat.not_lt.mpr full)]

/-- A coder that has taken some bits, heard by a receiver: all but the pending zeros have been heard, and under Z3 and
Z4 what is out are marks, each behind fewer than Z spaces. -/
structure Coding (code : ZeroRun) (r : Receiver) (c : Coder) (bits : List Bool) : Prop where
  heard : ∃ done, bits = done ++ List.replicate c.pending false ∧
    Heard code (decodeSymbols code r c.out) done r.violationsDue c.lastPositive
  pending : c.pending ≤ code.window
  spaced : code ≠ .off → ∃ cs, c.out = spacedMarks cs ∧ ∀ d ∈ cs, d.1 < code.length

theorem Coding.take_true {code : ZeroRun} {r : Receiver} {c : Coder} {bits : List Bool} (h : Coding code r c bits) :
    Coding code r (c.take code true) (bits ++ [true]) := by
  obtain ⟨⟨done, rfl, heard⟩, pending, spaced⟩ := h
  rw [Coder.take_true]
  refine ⟨⟨_, (List.append_nil _).symm, ?_⟩, Nat.zero_le _, fun on => ?_⟩
  · obtain ⟨waited, -⟩ := heard_spaces heard c.pending
    rw [decodeSymbols_append, decodeSymbols_append]
    exact (heard_mark waited).1
  · obtain ⟨cs, out, few⟩ := spaced on
    obtain ⟨long, -⟩ := ZeroRun.length_of_ne_off on
    refine ⟨cs ++ [(c.pending, !c.lastPositive)], ?_, fun d mem => ?_⟩
    · rw [spacedMarks_append, ← out, List.append_assoc]
      simp [spacedMarks]
    · rcases List.mem_append.mp mem with mem | mem
      · exact few d mem
      · rw [List.mem_singleton.mp mem]
        dsimp only
        omega

theorem Coding.take_false {code : ZeroRun} {r : Receiver} {c : Coder} {bits : List Bool} (h : Coding code r c bits) :
    Coding code r (c.take code false) (bits ++ [false]) := by
  obtain ⟨⟨done, rfl, heard⟩, pending, spaced⟩ := h
  by_cases on : code = .off
  · subst on
    have none : c.pending = 0 := Nat.le_zero.mp pending
    rw [Coder.take_false_off]
    refine ⟨⟨_, (List.append_nil _).symm, ?_⟩, Nat.zero_le _, fun on => absurd rfl on⟩
    rw [none, decodeSymbols_append, List.replicate_zero, List.append_nil]
    exact (heard_space heard).1
  · obtain ⟨long, two⟩ := ZeroRun.length_of_ne_off on
    obtain ⟨cs, out, few⟩ := spaced on
    rcases Nat.lt_or_ge (c.pending + 1) code.length with room | full
    · rw [Coder.take_false_pending on room]
      refine ⟨⟨done, ?_, heard⟩, ?_, spaced⟩
      · rw [List.append_assoc, ← List.replicate_succ']
      · dsimp only
        omega
    · have exact' : c.pending + 1 = code.length := by omega
      rw [Coder.take_false_substitution on full, exact', Nat.sub_self, List.replicate_zero, List.append_nil,
        List.append_assoc, ← List.replicate_succ', exact']
      refine ⟨⟨_, (List.append_nil _).symm, ?_⟩, Nat.zero_le _, fun _ => ?_⟩
      · rw [decodeSymbols_append, Coder.substitution]
        cases c.odd with
        | true =>
          have window : code.length - 1 = code.window := rfl
          rw [if_pos rfl, if_pos rfl, window]
          exact heard_substitution_odd on heard
        | false =>
          rw [if_neg Bool.false_ne_true, if_neg Bool.false_ne_true]
          exact heard_substitution_even on heard
      · rw [Coder.substitution]
        cases c.odd with
        | true =>
          refine ⟨cs ++ [(code.length - 1, c.lastPositive)], ?_, fun d mem => ?_⟩
          · rw [spacedMarks_append, ← out, if_pos rfl]
            simp [spacedMarks]
          · rcases List.mem_append.mp mem with mem | mem
            · exact few d mem
            · rw [List.mem_singleton.mp mem]
              dsimp only
              omega
        | false =>
          refine ⟨cs ++ [(0, !c.lastPositive), (code.length - 2, !c.lastPositive)], ?_, fun d mem => ?_⟩
          · rw [spacedMarks_append, ← out, if_neg Bool.false_ne_true]
            simp [spacedMarks]
          · rcases List.mem_append.mp mem with mem | mem
            · exact few d mem
            · simp only [List.mem_cons, List.not_mem_nil, or_false] at mem
              rcases mem with rfl | rfl <;> dsimp only <;> omega

/-- From a coder with nothing pending or queued and a receiver that has seen its last mark and holds no symbol. -/
theorem coding_codeBits {code : ZeroRun} {c : Coder} {r : Receiver} (pending : c.pending = 0) (out : c.out = [])
    (empty : r.undecided = []) (last : r.lastPositive = c.lastPositive) (bits : List Bool) :
    Coding code r (codeBits code c bits) bits := by
  induction bits using List.reverseRecOn with
  | nil =>
    change Coding code r c []
    refine ⟨⟨[], by rw [pending]; rfl, ?_⟩, by rw [pending]; exact Nat.zero_le _, fun _ => ⟨[], out, nofun⟩⟩
    rw [out]
    exact ⟨by simp [decodeSymbols, empty], rfl, last, by simp [decodeSymbols, empty]⟩
  | append_singleton bits b ih =>
    have last : codeBits code c (bits ++ [b]) = (codeBits code c bits).take code b := by
      rw [codeBits, List.foldl_append]
      rfl
    rw [last]
    cases b
    · exact ih.take_false
    · exact ih.take_true

end Sys2Proof.Machine

open Sys2Proof Sys2Proof.Machine

/-- Settles O47: the bits by induction from the last, and each bit by the cases of the coder. -/
theorem lineCodeDecodesWhatItCodes : Obligations.LineCodeDecodesWhatItCodes := by
  refine ⟨?decodes, ?codes⟩
  case decodes =>
    intro code c r bits pending out empty last coded heard
    obtain ⟨⟨done, all, decoded⟩, window, spaced⟩ := coding_codeBits (code := code) pending out empty last bits
    refine ⟨?_, decoded.violations, decoded.last, window, fun on before after => ?_⟩
    · have taken : bits.take (bits.length - coded.pending) = done := by
        have length : bits.length - coded.pending = done.length := by
          rw [all, List.length_append, List.length_replicate]
          exact Nat.add_sub_cancel ..
        rw [length, all]
        exact List.take_left ..
      rw [taken]
      exact decoded.bits
    · obtain ⟨cs, out, few⟩ := spaced on
      rw [show coded.out = spacedMarks cs from out]
      exact spacedMarks_ne (by have := ZeroRun.length_of_ne_off on; omega) few before after
  case codes =>
    intro code z c table spaces same opposite
    have length : code.length = z := by
      simp only [List.mem_cons, Prod.mk.injEq, List.not_mem_nil, or_false] at table
      rcases table with ⟨rfl, rfl⟩ | ⟨rfl, rfl⟩ | ⟨rfl, rfl⟩ <;> rfl
    subst length
    refine ⟨rfl, rfl, fun off => by rw [off]; rfl, fun on => ⟨Coder.take_false_pending on, fun full odd => ?_,
      fun full even => ?_⟩, fun x rest out late => ?_, fun early => ?_⟩
    · rw [Coder.take_false_substitution on full, Coder.substitution, odd]
      simp only [if_true, List.append_assoc]
      rfl
    · rw [Coder.take_false_substitution on full, Coder.substitution, even]
      simp only [Bool.false_eq_true, if_false, List.append_assoc, List.cons_append]
      rfl
    · rw [Coder.emit, if_pos late, out]
    · rw [Coder.emit]
      rcases early with none | early
      · rw [none]
        exact ite_self _
      · exact if_neg (Nat.not_lt.mpr early)

end

section
/-! SUPPORT. The status area as a run of fields (R38, 11.6), and the reads it answers (R13). -/

set_option Elab.async false

namespace Sys2Proof.Machine

/-! ## Beats of bytes -/

theorem wordsOfBytes_cons {head : List Byte} (h : head.length = 8) (rest : List Byte) :
    wordsOfBytes (head ++ rest) = BitVec.ofNat 64 (ofLE head) :: wordsOfBytes rest := by
  match head, h with
  | [_, _, _, _, _, _, _, _], _ => rfl

theorem wordsOfBytes_eq {n : Nat} {bs : List Byte} (h : bs.length = 8 * n) :
    wordsOfBytes bs = (List.range n).map fun k => BitVec.ofNat 64 (field bs (8 * k) 8) := by
  induction n generalizing bs with
  | zero =>
    rw [List.eq_nil_of_length_eq_zero h]
    rfl
  | succ n ih =>
    have first : (bs.take 8).length = 8 := by rw [List.length_take]; omega
    have rest : (bs.drop 8).length = 8 * n := by rw [List.length_drop]; omega
    have cut := wordsOfBytes_cons first (bs.drop 8)
    rw [List.take_append_drop, ih rest] at cut
    rw [cut, List.range_succ_eq_map, List.map_cons, List.map_map]
    refine congrArg (_ :: ·) (List.map_congr_left fun k _ => ?_)
    have place : 8 * (k + 1) = 8 + 8 * k := by ring
    rw [Function.comp_apply, field, field, slice, slice, List.drop_drop, Nat.succ_eq_add_one, place]

theorem field_slice_word {bs : List Byte} {o n k : Nat} (h : 8 * k + 8 ≤ n) :
    field (slice bs o n) (8 * k) 8 = field bs (o + 8 * k) 8 := by
  rw [field, slice, slice, List.drop_take, List.drop_drop, List.take_take, Nat.min_eq_left (by omega)]
  rfl

/-! ## Places in a structure -/

/-- What a section of a structure holds, the structure holds at the section's offset. -/
theorem Holds.of_section {bs before x after : List Byte} {length start : Nat} (parts : bs = before ++ (x ++ after))
    (begins : before.length = start) (lasts : x.length = length) {o n v : Nat} (h : Holds x o n v)
    (inside : o + n ≤ length) : Holds bs (start + o) n v := by
  unfold Holds at h ⊢
  rw [parts, field_append_right begins, field_append_left (by omega), h]

/-- What one structure of an array holds, the array holds at its offset. -/
theorem Holds.of_item {α : Type} {g : α → List Byte} {w : Nat} (lasts : ∀ x, (g x).length = w) {xs : List α} {k : Nat}
    (hk : k < xs.length) {o n v : Nat} (h : Holds (g xs[k]) o n v) (inside : o + n ≤ w) :
    Holds (xs.flatMap g) (w * k + o) n v :=
  (field_flatMap lasts hk inside).trans h

theorem Holds.of_entry {α : Type} {m : Nat} {g : α → List Byte} {w : Nat} (lasts : ∀ x, (g x).length = w)
    {xs : Vector α m} (k : Fin m) {o n v : Nat} (h : Holds (g xs[k]) o n v) (inside : o + n ≤ w) :
    Holds (xs.toList.flatMap g) (w * k.val + o) n v :=
  Holds.of_item lasts (by rw [Vector.length_toList]; exact k.isLt) (by rwa [Vector.getElem_toList]) inside

theorem flatMap_length {α : Type} {g : α → List Byte} {w : Nat} (lasts : ∀ x, (g x).length = w) (xs : List α) :
    (xs.flatMap g).length = w * xs.length := by
  induction xs with
  | nil => rfl
  | cons x xs ih =>
    rw [List.flatMap_cons, List.length_append, lasts, ih, List.length_cons]
    ring

/-! ## The sections of the status area (11.6) -/

/-- The fields of 0x1000–0x103F. -/
def State.controlFields (s : State) : List (Nat × Nat) :=
  [(1, s.fault.mode.code), (1, (s.fault.cause.map FatalCause.code).getD 0), (1, s.fault.further), (1, 0),
    (2, (s.fault.cause.map FatalCause.detail).getD 0), (2, flagsValue s.stagedFlags),
    (2, s.command.producer.toNat), (2, s.command.consumer.toNat), (2, s.command.state.code),
    (2, s.command.executing.toNat), (2, s.report.written.toNat), (2, s.report.consumed.toNat), (2, s.report.slot),
    (1, s.report.queue.length), (1, if s.report.post.isSome then 1 else 0), (1, s.timing.timecode.ff),
    (1, s.timing.timecode.ss), (1, s.timing.timecode.mm), (1, s.timing.timecode.hh),
    (4, s.timing.videoCount.toNat), (4, s.timing.audioCount.toNat), (1, s.timing.video.state.code),
    (1, s.timing.audio.state.code), (2, s.timing.video.glitches), (2, s.timing.audio.glitches),
    (1, if s.fault.state == .active then 1 else 0), (1, s.fault.state.code), (4, s.fault.number.toNat),
    (2, s.fault.interval), (2, s.fault.stagedInterval.getD 0), (2, s.fault.frames), (10, 0)]

theorem State.controlFields_bytes (s : State) :
    padTo 64 (s.modeBytes ++ s.commandBytes ++ s.timingBytes ++ s.measureBytes) = layout s.controlFields := by
  simp only [State.modeBytes, State.commandBytes, State.timingBytes, State.measureBytes, Timecode.bytes_eq, flagByte_eq]
  simp [State.controlFields, layout, padTo, leBytes_length, leBytes_zero]

/-- The fields of the 80 bytes of the label unit that stand alone. -/
def State.labelFields (s : State) : List (Nat × Nat) :=
  [(2, s.label.written.toNat), (2, s.label.consumed.toNat), (2, s.label.slot), (1, s.label.occupied),
    (1, s.label.uplink.length), (2, s.label.stray.toNat), (6, 0)]

/-- The fields of a stream. -/
def Stream.statusFields (x : Stream) : List (Nat × Nat) :=
  [(4, x.fill), (1, x.hint), (1, if x.keyRequest then 1 else 0), (1, x.pictures.length), (1, x.notices.length),
    (4, x.counter.toNat), (4, x.lastAdmitted.toNat)] ++
  (match x.pictures with
    | p :: _ => [(4, p.number.toNat), (1, p.timecode.ff), (1, p.timecode.ss), (1, p.timecode.mm), (1, p.timecode.hh)]
    | [] => [(8, 0)]) ++ [(8, 0)]

theorem Stream.statusBytes_eq (x : Stream) : x.statusBytes = layout x.statusFields := by
  unfold Stream.statusBytes Stream.statusFields
  cases x.pictures <;>
    simp [layout, padTo, leBytes_length, leBytes_zero, Timecode.bytes_eq, flagByte_eq]

theorem Stream.statusBytes_length (x : Stream) : x.statusBytes.length = 32 := by
  rw [Stream.statusBytes_eq, layout_length, Stream.statusFields]
  cases x.pictures <;> rfl

/-- The fields of a line. -/
def Line.statusFields (x : Line) : List (Nat × Nat) :=
  [(1, x.function.code), (1, x.list.state.code), (1, if x.receiver.los then 1 else 0), (1, x.receiver.sync.code),
    (2, x.sequence.toNat), (2, x.receiver.ignored.toNat), (8, x.list.current), (4, x.list.reserved),
    (1, if x.list.resumePending then 1 else 0), (1, kindCode (x.tx.map (·.kind))), (1, kindCode (x.next.map (·.kind))),
    (9, 0)]

theorem Line.statusBytes_eq (x : Line) : x.statusBytes = layout x.statusFields := by
  simp [Line.statusBytes, Line.statusFields, layout, padTo, leBytes_length, leBytes_zero, flagByte_eq]

theorem Line.statusBytes_length (x : Line) : x.statusBytes.length = 32 := by
  rw [Line.statusBytes_eq, layout_length]
  rfl

/-- The fields of a source. -/
def Source.statusFields (x : Source) : List (Nat × Nat) :=
  [(1, if x.active then 1 else 0), (1, 0), (2, x.late.toNat), (2, x.rewrites.toNat), (2, x.outOfWindow.toNat)]

theorem Source.statusBytes_eq (x : Source) : x.statusBytes = layout x.statusFields := by
  simp [Source.statusBytes, Source.statusFields, layout, padTo, leBytes_length, leBytes_zero, flagByte_eq]

theorem Source.statusBytes_length (x : Source) : x.statusBytes.length = 8 := by
  rw [Source.statusBytes_eq, layout_length]
  rfl

theorem Stream.statusFields_of_head {x : Stream} {p : Picture} {rest : List Picture} (h : x.pictures = p :: rest) :
    x.statusFields = [(4, x.fill), (1, x.hint), (1, if x.keyRequest then 1 else 0), (1, x.pictures.length),
      (1, x.notices.length), (4, x.counter.toNat), (4, x.lastAdmitted.toNat), (4, p.number.toNat), (1, p.timecode.ff),
      (1, p.timecode.ss), (1, p.timecode.mm), (1, p.timecode.hh), (8, 0)] := by
  rw [Stream.statusFields, h]
  rfl

theorem Stream.statusFields_of_empty {x : Stream} (h : x.pictures = []) :
    x.statusFields = [(4, x.fill), (1, x.hint), (1, if x.keyRequest then 1 else 0), (1, x.pictures.length),
      (1, x.notices.length), (4, x.counter.toNat), (4, x.lastAdmitted.toNat), (8, 0), (8, 0)] := by
  rw [Stream.statusFields, h]
  rfl

/-- The status area as its sections, from the lowest offset. -/
def State.statusSections (s : State) : List (List Byte) :=
  [layout s.controlFields, s.fault.classes.toList.flatMap (fun c => leBytes 8 c.latest.value),
    s.fault.classes.toList.flatMap (fun c => leBytes 2 c.count.toNat),
    s.mixer.meters.toList.flatMap (fun m => leBytes 4 m), layout s.labelFields,
    (List.finRange 8).flatMap (fun k => leBytes 2 (s.label.openId k).toNat),
    s.label.cameras.toList.flatMap (fun c => leBytes 2 c.lastSlot.toNat),
    s.label.cameras.toList.flatMap (fun c => leBytes 4 c.completions.toNat),
    s.governor.streams.toList.flatMap Stream.statusBytes, s.lines.toList.flatMap Line.statusBytes,
    s.mixer.sources.toList.flatMap Source.statusBytes]

/-- The lengths of the sections. -/
def statusLengths : List Nat := [64, 64, 16, 64, 16, 16, 16, 32, 128, 96, 512]

theorem vector_flatMap_length {α : Type} {m w : Nat} {g : α → List Byte} (lasts : ∀ x, (g x).length = w)
    (xs : Vector α m) : (xs.toList.flatMap g).length = w * m := by
  rw [flatMap_length lasts, Vector.length_toList]

theorem State.statusSections_lengths (s : State) : s.statusSections.map List.length = statusLengths := by
  have control : (layout s.controlFields).length = 64 := by simp [layout_length, State.controlFields]
  have alone : (layout s.labelFields).length = 16 := by simp [layout_length, State.labelFields]
  have opens : ((List.finRange 8).flatMap fun k => leBytes 2 (s.label.openId k).toNat).length = 16 := by
    rw [flatMap_length (fun k => leBytes_length 2 _), List.length_finRange]
  simp only [State.statusSections, statusLengths, List.map_cons, List.map_nil, opens, control, alone,
    vector_flatMap_length (leBytes_length 8 <| FailAddress.value <| ClassRecord.latest ·),
    vector_flatMap_length (leBytes_length 2 <| BitVec.toNat <| ClassRecord.count ·),
    vector_flatMap_length (leBytes_length 4),
    vector_flatMap_length (leBytes_length 2 <| BitVec.toNat <| CameraState.lastSlot ·),
    vector_flatMap_length (leBytes_length 4 <| BitVec.toNat <| CameraState.completions ·),
    vector_flatMap_length Stream.statusBytes_length, vector_flatMap_length Line.statusBytes_length,
    vector_flatMap_length Source.statusBytes_length]

theorem State.labelBytes_eq (s : State) : s.labelBytes = layout s.labelFields ++
    (List.finRange 8).flatMap (fun k => leBytes 2 (s.label.openId k).toNat) ++
    s.label.cameras.toList.flatMap (fun c => leBytes 2 c.lastSlot.toNat) ++
    s.label.cameras.toList.flatMap (fun c => leBytes 4 c.completions.toNat) := by
  have alone : padTo 16 (leBytes 2 s.label.written.toNat ++ leBytes 2 s.label.consumed.toNat ++
      leBytes 2 s.label.slot ++ leBytes 1 s.label.occupied ++ leBytes 1 s.label.uplink.length ++
      leBytes 2 s.label.stray.toNat) = layout s.labelFields := by
    simp [State.labelFields, layout, padTo, leBytes_length, leBytes_zero]
  rw [← alone]
  rfl

theorem State.statusBytes_sections (s : State) : s.statusBytes = s.statusSections.flatten := by
  rw [State.statusBytes, State.controlFields_bytes, State.labelBytes_eq]
  simp only [State.statusSections, State.faultBytes, State.meterBytes, List.flatten_cons, List.flatten_nil,
    List.append_nil, List.append_assoc]

theorem State.statusBytes_length (s : State) : s.statusBytes.length = 1024 := by
  rw [State.statusBytes_sections, List.length_flatten, State.statusSections_lengths]
  rfl

/-- What a section holds, the status area shows. -/
theorem State.shows_of_section {s : State} (k : Fin 11) {o n v offset : Nat}
    (h : Holds (s.statusSections[k.val]'(by rw [← List.length_map, s.statusSections_lengths]; exact k.isLt)) o n v)
    (inside : o + n ≤ statusLengths[k]) (place : 0x1000 + ((statusLengths.take k).sum + o) = offset) :
    s.Shows offset n v := by
  have inRange : k.val < s.statusSections.length := by
    rw [← List.length_map, s.statusSections_lengths]
    exact k.isLt
  have cut : s.statusSections.flatten =
      (s.statusSections.take k).flatten ++ (s.statusSections[k.val] ++ (s.statusSections.drop (k + 1)).flatten) := by
    conv_lhs => rw [← List.take_append_drop k.val s.statusSections, List.flatten_append,
      List.drop_eq_getElem_cons inRange, List.flatten_cons]
  have begins : (s.statusSections.take k).flatten.length = (statusLengths.take k).sum := by
    rw [List.length_flatten, List.map_take, s.statusSections_lengths]
  have lasts : (s.statusSections[k.val]).length = statusLengths[k] := by
    have same := congrArg (·[k.val]?) s.statusSections_lengths
    rw [List.getElem?_map, List.getElem?_eq_getElem inRange,
      List.getElem?_eq_getElem (show k.val < statusLengths.length from k.isLt)] at same
    exact Option.some.inj same
  have shown := Holds.of_section cut begins lasts h inside
  rw [State.Shows, s.statusBytes_sections, ← place, Nat.add_sub_cancel_left]
  exact shown

/-! ## What each section shows -/

theorem State.Shows.of_eq {s : State} {offset n v w : Nat} (e : v = w) (h : s.Shows offset n v) :
    s.Shows offset n w := e ▸ h

/-- The fields of a run stand one behind the other from an offset on. -/
def State.ShowsRun (s : State) : Nat → List (Nat × Nat) → Prop
  | _, [] => True
  | offset, f :: fields => s.Shows offset f.1 f.2 ∧ s.ShowsRun (offset + f.1) fields

theorem State.showsRun_of_all {s : State} {fields : List (Nat × Nat)} {start : Nat}
    (h : ∀ k n v, fields[k]? = some (n, v) → s.Shows (start + layoutOffset fields k) n v) : s.ShowsRun start fields := by
  induction fields generalizing start with
  | nil => trivial
  | cons f fields ih =>
    refine ⟨h 0 f.1 f.2 rfl, ih fun k n v at_ => ?_⟩
    have later := h (k + 1) n v at_
    rwa [layoutOffset, List.take_succ_cons, List.map_cons, List.sum_cons, ← Nat.add_assoc] at later

theorem layoutOffset_add_le {fields : List (Nat × Nat)} {k n v : Nat} (h : fields[k]? = some (n, v)) :
    layoutOffset fields k + n ≤ (fields.map (·.1)).sum := by
  obtain ⟨inRange, at_⟩ := List.getElem?_eq_some_iff.mp h
  have cut := congrArg (fun fs => (fs.map (·.1)).sum) (List.take_append_drop k fields)
  simp only [List.drop_eq_getElem_cons inRange, at_, List.map_append, List.map_cons, List.sum_append,
    List.sum_cons] at cut
  rw [← cut, layoutOffset]
  omega

theorem State.shows_control (s : State) : s.ShowsRun 0x1000 s.controlFields := by
  refine State.showsRun_of_all fun k n v at_ => State.shows_of_section 0 (layout_holds k at_ rfl) ?_ ?_
  · refine (layoutOffset_add_le at_).trans ?_
    exact Nat.le_of_eq (by simp [State.controlFields, statusLengths])
  · exact congrArg (0x1000 + ·) (Nat.zero_add _)

theorem State.shows_label (s : State) : s.ShowsRun 0x10D0 s.labelFields := by
  refine State.showsRun_of_all fun k n v at_ => State.shows_of_section 4 (layout_holds k at_ rfl) ?_ ?_
  · refine (layoutOffset_add_le at_).trans ?_
    exact Nat.le_of_eq (by simp [State.labelFields, statusLengths])
  · exact (Nat.add_assoc 0x1000 0xD0 (layoutOffset s.labelFields k)).symm

/-- One number in each entry of a section that is a table of numbers. -/
theorem Holds.of_numbers {α : Type} {m w : Nat} {f : α → Nat} (xs : Vector α m) (k : Fin m) :
    Holds (xs.toList.flatMap fun x => leBytes w (f x)) (w * k.val) w (f xs[k]) :=
  Holds.of_entry (fun x => leBytes_length w (f x)) k (field_leBytes ..) (Nat.zero_add w).le

theorem State.shows_stream (s : State) (m : Fin 4) : s.ShowsRun (0x1120 + 32 * m.val) (s.stream m).statusFields := by
  refine State.showsRun_of_all fun k n v at_ => ?_
  have inside := layoutOffset_add_le at_
  have lasts := (layout_length _).symm.trans ((s.stream m).statusBytes_eq ▸ (s.stream m).statusBytes_length)
  rw [lasts] at inside
  have held : Holds (s.stream m).statusBytes _ n v := (s.stream m).statusBytes_eq ▸ layout_holds k at_ rfl
  refine State.shows_of_section 8 (Holds.of_entry Stream.statusBytes_length (xs := s.governor.streams) m held inside)
    ?_ ?_
  · change _ ≤ 128
    omega
  · change 0x1000 + (0x120 + (32 * m.val + _)) = _
    omega

theorem State.shows_line (s : State) (l : LineId) : s.ShowsRun (0x11A0 + 32 * l.val) (s.line l).statusFields := by
  refine State.showsRun_of_all fun k n v at_ => ?_
  have inside : _ ≤ 32 := layoutOffset_add_le at_
  have held : Holds (s.line l).statusBytes _ n v := (s.line l).statusBytes_eq ▸ layout_holds k at_ rfl
  refine State.shows_of_section 9 (Holds.of_entry Line.statusBytes_length (xs := s.lines) l held inside) ?_ ?_
  · change _ ≤ 96
    omega
  · change 0x1000 + (0x1A0 + (32 * l.val + _)) = _
    omega

theorem State.shows_source (s : State) (x : Fin 64) :
    s.ShowsRun (0x1200 + 8 * x.val) (s.mixer.sources[x]).statusFields := by
  refine State.showsRun_of_all fun k n v at_ => ?_
  have inside : _ ≤ 8 := layoutOffset_add_le at_
  have held : Holds (s.mixer.sources[x]).statusBytes _ n v :=
    (s.mixer.sources[x]).statusBytes_eq ▸ layout_holds k at_ rfl
  refine State.shows_of_section 10 (Holds.of_entry Source.statusBytes_length (xs := s.mixer.sources) x held inside)
    ?_ ?_
  · change _ ≤ 512
    omega
  · change 0x1000 + (0x200 + (8 * x.val + _)) = _
    omega

/-- A section that is a table of numbers shows each at its place. -/
theorem State.shows_numbers {s : State} (q : Fin 11) {α : Type} {m w : Nat} {f : α → Nat} {xs : Vector α m} (k : Fin m)
    (section_ : s.statusSections[q.val]? = some (xs.toList.flatMap fun x => leBytes w (f x)))
    (whole : statusLengths[q] = w * m) :
    s.Shows (0x1000 + ((statusLengths.take q).sum + w * k.val)) w (f xs[k]) := by
  obtain ⟨inRange, at_⟩ := List.getElem?_eq_some_iff.mp section_
  refine State.shows_of_section q (o := w * k.val) ?_ ?_ rfl
  · rw [at_]
    exact Holds.of_numbers xs k
  · rw [whole, ← Nat.mul_succ]
    exact Nat.mul_le_mul_left w k.isLt

/-! ## The flags and counts the area shows -/

theorem flagsValue_lt (fs : List Bool) : flagsValue fs < 2 ^ fs.length := by
  induction fs with
  | nil => exact Nat.one_pos
  | cons f fs ih =>
    rw [flagsValue, List.length_cons, Nat.pow_succ]
    cases f <;> simp only [bit] <;> grind

theorem flagsValue_testBit (fs : List Bool) (k : Nat) : (flagsValue fs).testBit k = (fs[k]?).getD false := by
  induction fs generalizing k with
  | nil => exact Nat.zero_testBit k
  | cons f fs ih =>
    have low : (bit f + 2 * flagsValue fs) % 2 = bit f := by cases f <;> simp [bit]
    have high : (bit f + 2 * flagsValue fs) / 2 = flagsValue fs := by cases f <;> simp only [bit] <;> grind
    cases k with
    | zero =>
      rw [flagsValue, Nat.testBit_zero, low]
      cases f <;> rfl
    | succ k =>
      rw [flagsValue, Nat.testBit_succ, high, ih]
      rfl

theorem State.stagedFlags_length (s : State) : s.stagedFlags.length = 10 := rfl

theorem State.staged_eq (s : State) : field s.statusBytes 6 2 = flagsValue s.stagedFlags := by
  have small := flagsValue_lt s.stagedFlags
  rw [s.stagedFlags_length] at small
  obtain ⟨-, -, -, -, -, shown, -⟩ := s.shows_control
  exact (show s.Shows 0x1006 2 _ from shown).trans (Nat.mod_eq_of_lt (by omega))

theorem State.staged_lt (s : State) : field s.statusBytes 6 2 < 1024 := by
  have small := flagsValue_lt s.stagedFlags
  rw [s.stagedFlags_length] at small
  rw [s.staged_eq]
  exact small

theorem State.staged_testBit (s : State) (k : Nat) :
    (field s.statusBytes 6 2).testBit k = (s.stagedFlags[k]?).getD false := by
  rw [s.staged_eq, flagsValue_testBit]

theorem Label.occupied_eq (x : Label) :
    x.occupied = ((List.finRange 32).filter fun i => (x.clips[i]).isSome).length := by
  have all : x.clips.toList = (List.finRange 32).map fun i => x.clips[i] := by
    refine List.ext_getElem (by simp) fun i hi hj => ?_
    simp
  rw [Label.occupied, all, List.filter_map, List.length_map]
  rfl

end Sys2Proof.Machine

open Sys2Proof Sys2Proof.Machine

/-- Settles O5: the answer by the test of R8 or R10, its beats as words of the area, and the area section by
section. -/
theorem statusAreaReadIsIntercepted : Obligations.StatusAreaReadIsIntercepted := by
  refine ⟨?answered, ?beats, ?area⟩
  case answered =>
    intro r us s₀ s arrives free sound status
    rw [exec_fabricRequest_of_arrives arrives, ← interceptRead_of_tagFree free]
    rcases h : s.isNormal with _ | _
    · rw [arrive_of_passOnly h free, passThrough_of_statusRead status]
    · obtain ⟨⟨n, burst⟩, spans, low, high⟩ := status
      have inside : InControlPage r s := ⟨by omega, by omega⟩
      rw [arrive_of_classified ⟨h, free, sound h⟩]
      have area : 0x1000 ≤ requestByte r - s.controlPage ∧ requestByte r - s.controlPage ≤ 0x13FF := by omega
      simp only [classify, spans, pageOffset_of_in inside, controlPageRequest, burst, area]
      rfl
  case beats =>
    intro s o n low high aligned
    have left : (slice s.statusBytes (o - 0x1000) (8 * n)).length = 8 * min n ((0x1400 - o) / 8) := by
      rw [slice, List.length_take, List.length_drop, s.statusBytes_length]
      omega
    refine List.ext_getElem (by simp [State.statusBeats]) fun k hk hk' => ?_
    have few : k < n := by simpa using hk'
    simp only [State.statusBeats, wordsOfBytes_eq left, List.getElem_take, List.getElem_append, List.length_map,
      List.length_range, List.getElem_map, List.getElem_range, List.getElem_replicate]
    by_cases inside : o + 8 * k ≤ 0x13FF
    · rw [dif_pos (by omega), if_pos inside, field_slice_word (by omega)]
    · rw [dif_neg (by omega), if_neg inside]
  case area =>
    intro s staged
    have theCause : (s.fault.cause.map FatalCause.code).getD 0 = (match s.fault.cause with
      | none => 0
      | some (.tagInUse _) => 1
      | some (.unknownTag _) => 2
      | some (.windowParity _) => 3) := by rcases s.fault.cause with _ | _ | _ | _ <;> rfl
    have theDetail : (s.fault.cause.map FatalCause.detail).getD 0 = (match s.fault.cause with
      | none => 0
      | some (.tagInUse k) => k.toNat
      | some (.unknownTag k) => k.toNat
      | some (.windowParity e) => e) := by rcases s.fault.cause with _ | _ | _ | _ <;> rfl
    have isPassOnly : s.fault.mode.code = if s.fault.mode = .passOnly then 1 else 0 := by cases s.fault.mode <;> rfl
    have isActive : (if s.fault.state == .active then 1 else 0) = if s.fault.state = .active then 1 else 0 := by
      cases s.fault.state <;> rfl
    have control := s.shows_control
    simp only [State.controlFields, State.ShowsRun, Nat.reduceAdd, and_true, theCause, theDetail, isPassOnly,
      isActive] at control
    obtain ⟨mode, cause, further, unused, detail, -, producer, consumer, command, executing, written, consumed, slot,
      queue, post, ff, ss, mm, hh, videoCount, audioCount, videoState, audioState, videoGlitches, audioGlitches, active,
      state, number, interval, stagedInterval, frames, rest⟩ := control
    have label := s.shows_label
    simp only [State.labelFields, State.ShowsRun, Nat.reduceAdd, and_true, s.label.occupied_eq] at label
    obtain ⟨labelWritten, labelConsumed, labelSlot, occupied, uplink, stray, labelRest⟩ := label
    refine ⟨s.statusBytes_length, mode, cause, further, unused, detail, s.staged_lt, s.staged_testBit 0,
      s.staged_testBit 1, fun n => ?_, fun l => ?_, s.staged_testBit 9, producer, consumer, command, executing, written,
      consumed, slot, queue, post, ff, ss, mm, hh, videoCount, audioCount, videoState, audioState, videoGlitches,
      audioGlitches, active, state, number, interval, stagedInterval, frames, rest,
      fun k => ⟨?latest, ?faults⟩, fun b => ?meters, labelWritten, labelConsumed, labelSlot, occupied, uplink, stray,
      labelRest, fun c => ⟨?opens, ?slots, ?completions⟩, fun n => ?_, fun l => ?_, fun x => ?_⟩
    case latest =>
      have entry := State.shows_numbers (s := s) 1 (f := fun c : ClassRecord => c.latest.value) k rfl rfl
      have value (a : FailAddress) : a.value = (match a with
        | .address a => a.toNat
        | .location u i => 2 ^ 63 + 256 * u.toNat + i.toNat) := by cases a <;> rfl
      rw [value] at entry
      exact (Nat.add_assoc 0x1000 0x40 (8 * k.val)) ▸ entry
    case faults =>
      exact (Nat.add_assoc 0x1000 0x80 (2 * k.val)) ▸
        State.shows_numbers (s := s) 2 (f := fun c : ClassRecord => c.count.toNat) k rfl rfl
    case meters =>
      exact (Nat.add_assoc 0x1000 0x90 (4 * b.val)) ▸ State.shows_numbers (s := s) 3 (f := fun m => m) b rfl rfl
    case slots =>
      exact (Nat.add_assoc 0x1000 0xF0 (2 * c.val)) ▸
        State.shows_numbers (s := s) 6 (f := fun c : CameraState => c.lastSlot.toNat) c rfl rfl
    case completions =>
      exact (Nat.add_assoc 0x1000 0x100 (4 * c.val)) ▸
        State.shows_numbers (s := s) 7 (f := fun c : CameraState => c.completions.toNat) c rfl rfl
    case opens =>
      have inRange : c.val < (List.finRange 8).length := by rw [List.length_finRange]; exact c.isLt
      have entry := Holds.of_item (g := fun k => leBytes 2 (s.label.openId k).toNat) (fun k => leBytes_length 2 _)
        inRange (field_leBytes ..) (Nat.le_refl 2)
      rw [List.getElem_finRange] at entry
      refine State.shows_of_section 5 entry ?_ ?_
      · change _ ≤ 16
        omega
      · change 0x1000 + (0xE0 + (2 * c.val + 0)) = _
        omega
    · rw [s.staged_testBit]
      fin_cases n <;> rfl
    · rw [s.staged_testBit]
      fin_cases l <;> rfl
    · dsimp only
      have stream := s.shows_stream n
      rcases held : (s.stream n).pictures with _ | ⟨p, rest⟩
      · rw [Stream.statusFields_of_empty held, held] at stream
        simp only [State.ShowsRun, Nat.reduceAdd, Nat.add_assoc, and_true] at stream
        obtain ⟨fill, hint, key, pictures, notices, counter, lastAdmitted, none', rest⟩ := stream
        exact ⟨fill, hint, key, pictures, notices, counter, lastAdmitted, fun _ => none', nofun, rest⟩
      · rw [Stream.statusFields_of_head held, held] at stream
        simp only [State.ShowsRun, Nat.reduceAdd, Nat.add_assoc, and_true] at stream
        obtain ⟨fill, hint, key, pictures, notices, counter, lastAdmitted, number, ff, ss, mm, hh, last⟩ := stream
        refine ⟨fill, hint, key, pictures, notices, counter, lastAdmitted, nofun, fun p' rest' same => ?_, last⟩
        cases same
        exact ⟨number, ff, ss, mm, hh⟩
    · dsimp only
      have line := s.shows_line l
      have locked : (s.line l).receiver.sync.code = if (s.line l).receiver.sync = .locked then 1 else 0 := by
        cases (s.line l).receiver.sync <;> rfl
      have kind {α : Type} (f : α → FrameKind) (x : Option α) :
          kindCode (x.map f) = (x.map fun y => (f y).code).getD 0xFF := by cases x <;> rfl
      simp only [Line.statusFields, State.ShowsRun, Nat.reduceAdd, Nat.add_assoc, and_true, locked, kind] at line
      obtain ⟨function, list, los, sync, sequence, ignored, current, reserved, resume, tx, next, rest⟩ := line
      exact ⟨function, list, los, sync, sequence, ignored, current, reserved, resume, tx, next, rest⟩
    · dsimp only
      have source := s.shows_source x
      simp only [Source.statusFields, State.ShowsRun, Nat.reduceAdd, Nat.add_assoc, and_true] at source
      obtain ⟨active, unused, late, rewrites, outOfWindow⟩ := source
      exact ⟨active, unused, late, rewrites, outOfWindow⟩

end

section
/-! SUPPORT. A control-page write taken field by field: the beats of the write that reach snooped fields, what each
hands over, and what each partly written one reports (R8, R21). -/

set_option Elab.async false

namespace Sys2Proof.Machine

variable {s u : State}

/-! ## Beats by offset -/

theorem beatAt_nil (offset wanted : Nat) : beatAt [] offset wanted = none := by
  rw [beatAt]
  exact ite_self _

theorem beatAt_above {beats : List Beat} {offset wanted : Nat} (h : wanted < offset) :
    beatAt beats offset wanted = none := if_neg (Nat.not_le.mpr h)

theorem beatAt_cons_same (b : Beat) (beats : List Beat) (offset : Nat) :
    beatAt (b :: beats) offset offset = some b := by
  rw [beatAt, if_pos (Nat.le_refl _), Nat.sub_self]
  rfl

theorem beatAt_cons_other {b : Beat} {beats : List Beat} {offset wanted : Nat} (h : wanted ≠ offset)
    (aligned : 8 ∣ offset) (aligned' : 8 ∣ wanted) :
    beatAt (b :: beats) offset wanted = beatAt beats (offset + 8) wanted := by
  rcases Nat.lt_or_gt_of_ne h with below | above
  · rw [beatAt_above below, beatAt_above (by omega)]
  · rw [beatAt, beatAt, if_pos above.le, if_pos (by omega),
      show (wanted - offset) / 8 = (wanted - (offset + 8)) / 8 + 1 by omega]
    rfl

/-! ## One field -/

/-- The field of a control-page write at one offset. -/
def takeField (page : Nat) (at' : Nat → Option Beat) (s : State) (offset : Nat) : State :=
  match at' offset with
  | some b => snoopBeat page offset b s
  | none => s

theorem snoopBeat_of_not_snooped {page offset : Nat} (h : snoopedAt offset = none) (b : Beat) (s : State) :
    snoopBeat page offset b s = s := by
  rw [snoopBeat, h]

/-- A beat of a write taken before the fields of the others, in the order of the fields. -/
theorem foldl_takeField_cons {page offset : Nat} {b : Beat} {beats : List Beat} (aligned : 8 ∣ offset)
    {fields : List Nat} (ascending : fields.Pairwise (· < ·)) (places : ∀ w ∈ fields, 8 ∣ w) (s : State) :
    fields.foldl (takeField page (beatAt (b :: beats) offset)) s =
      fields.foldl (takeField page (beatAt beats (offset + 8)))
        (if offset ∈ fields then snoopBeat page offset b s else s) := by
  induction fields generalizing s with
  | nil => rfl
  | cons w fields ih =>
    obtain ⟨above, ascending⟩ := List.pairwise_cons.mp ascending
    have later := ih ascending fun v mem => places v (List.mem_cons_of_mem _ mem)
    rw [List.foldl_cons, List.foldl_cons, later]
    by_cases same : w = offset
    · subst same
      have gone : w ∉ fields := fun mem => Nat.lt_irrefl _ (above w mem)
      have first : takeField page (beatAt (b :: beats) w) s w = snoopBeat page w b s := by
        rw [takeField, beatAt_cons_same]
      have second (t : State) : takeField page (beatAt beats (w + 8)) t w = t := by
        rw [takeField, beatAt_above (by omega)]
      rw [first, second, if_neg gone, if_pos List.mem_cons_self]
    · have beat := beatAt_cons_other (b := b) (beats := beats) same aligned (places w List.mem_cons_self)
      have mem : offset ∈ w :: fields ↔ offset ∈ fields := by
        rw [List.mem_cons, or_iff_right (Ne.symm same)]
      have step (t : State) : takeField page (beatAt (b :: beats) offset) t w =
          takeField page (beatAt beats (offset + 8)) t w := by rw [takeField, takeField, beat]
      simp only [mem, step]
      by_cases here : offset ∈ fields
      · have early : w < offset := above offset here
        have nothing (t : State) : takeField page (beatAt beats (offset + 8)) t w = t := by
          rw [takeField, beatAt_above (by omega)]
        rw [if_pos here, if_pos here, nothing, nothing]
      · rw [if_neg here, if_neg here]

/-! ## The snooped fields (R21) -/

theorem snoopedAt_gain (k : Fin 256) : snoopedAt (0x0400 + 8 * k.val) = some (.gain k) := by
  have := k.isLt
  rw [snoopedAt, if_neg (by omega), if_neg (by omega), if_neg (by omega), if_pos (by omega),
    show (0x0400 + 8 * k.val - 0x0400) / 8 = k.val by omega, toFin_of_lt k.isLt]
  rfl

theorem mem_snoopedOffsets_iff {offset : Nat} : offset ∈ snoopedOffsets ↔
    (∃ k : Fin 256, offset = 0x0400 + 8 * k.val) ∨ offset = 0x0E00 ∨ offset = 0x0E08 ∨ offset = 0x0E10 := by
  simp only [snoopedOffsets, List.mem_append, List.mem_map, List.mem_range, List.mem_cons, List.not_mem_nil, or_false]
  refine or_congr_left ⟨?_, ?_⟩
  · rintro ⟨k, small, rfl⟩
    exact ⟨⟨k, small⟩, rfl⟩
  · rintro ⟨k, rfl⟩
    exact ⟨k.val, k.isLt, rfl⟩

theorem snoopedAt_of_not_mem {offset : Nat} (aligned : 8 ∣ offset) (h : offset ∉ snoopedOffsets) :
    snoopedAt offset = none := by
  rw [mem_snoopedOffsets_iff] at h
  obtain ⟨gain, producer, report, label⟩ : (¬ ∃ k : Fin 256, offset = 0x0400 + 8 * k.val) ∧
    offset ≠ 0x0E00 ∧ offset ≠ 0x0E08 ∧ offset ≠ 0x0E10 := by
    simpa only [not_or] using h
  rw [snoopedAt, if_neg producer, if_neg report, if_neg label]
  by_cases low : 0x0400 ≤ offset
  · rw [if_pos low]
    rcases Nat.lt_or_ge ((offset - 0x0400) / 8) 256 with small | large
    · exact absurd ⟨⟨_, small⟩, show offset = 0x0400 + 8 * ((offset - 0x0400) / 8) by omega⟩ gain
    · rw [toFin_of_le large]
      rfl
  · exact if_neg low

theorem snoopedOffsets_aligned : ∀ w ∈ snoopedOffsets, 8 ∣ w := by
  intro w mem
  rcases mem_snoopedOffsets_iff.mp mem with ⟨k, rfl⟩ | rfl | rfl | rfl <;> omega

theorem snoopedOffsets_ascending : snoopedOffsets.Pairwise (· < ·) := by
  refine List.pairwise_append.mpr ⟨?_, by decide, ?_⟩
  · refine List.pairwise_map.mpr (List.pairwise_lt_range.imp fun less => ?_)
    omega
  · intro a left b right
    obtain ⟨k, small, rfl⟩ := List.mem_map.mp left
    have := List.mem_range.mp small
    simp only [List.mem_cons, List.not_mem_nil, or_false] at right
    omega

/-- The beats of a write in order are its fields in order. -/
theorem snoopBeats_eq {page offset : Nat} (aligned : 8 ∣ offset) (beats : List Beat) (s : State) :
    snoopBeats page offset beats s = snoopedOffsets.foldl (takeField page (beatAt beats offset)) s := by
  induction beats generalizing offset s with
  | nil =>
    have nothing (fields : List Nat) : fields.foldl (takeField page (beatAt [] offset)) s = s := by
      induction fields with
      | nil => rfl
      | cons w fields ih => rw [List.foldl_cons, takeField, beatAt_nil, ih]
    exact (nothing _).symm
  | cons b beats ih =>
    rw [foldl_takeField_cons aligned snoopedOffsets_ascending snoopedOffsets_aligned, snoopBeats,
      ih (Dvd.dvd.add aligned (by decide))]
    by_cases mem : offset ∈ snoopedOffsets
    · rw [if_pos mem]
    · rw [if_neg mem, snoopBeat_of_not_snooped (snoopedAt_of_not_mem aligned mem)]

/-! ## What the fields hand over -/

/-- The values that fields hand to one owner. -/
def handedValues (at' : Nat → Option Beat) (f : Snooped) (fields : List Nat) : List Count16 :=
  fields.flatMap fun w => if snoopedAt w = some f then fieldValue (at' w) else []

/-- The values of one field with its index, where it is a gain. -/
def Snooped.gains (f : Snooped) (values : List Count16) : List (Fin 256 × Count16) :=
  match f with
  | .gain k => values.map fun g => (k, g)
  | _ => []

theorem Snooped.gains_nil (f : Snooped) : f.gains [] = [] := by cases f <;> rfl

/-- The gain values that fields hand over, each with its index. -/
def handedGains (at' : Nat → Option Beat) (fields : List Nat) : List (Fin 256 × Count16) :=
  fields.flatMap fun w => ((snoopedAt w).map (·.gains (fieldValue (at' w)))).getD []

/-- The faults of the partly written fields. -/
def partlyFaulted (page : Nat) (at' : Nat → Option Beat) (fields : List Nat) (s : State) : State :=
  (fields.filter fun w => fieldPartly (at' w)).foldl
    (fun u w => faultedState 6 (.address (BitVec.ofNat 36 (page + w))) u) s

/-- What one fully enabled, partly written or untouched snooped field does. -/
theorem takeField_cases {page w : Nat} {at' : Nat → Option Beat} {f : Snooped} (here : snoopedAt w = some f)
    (normal : s.isNormal = true) :
    (fieldPartly (at' w) = true ∧ fieldValue (at' w) = [] ∧
      takeField page at' s w = faultedState 6 (.address (BitVec.ofNat 36 (page + w))) s) ∨
    (fieldPartly (at' w) = false ∧ fieldValue (at' w) = [] ∧ takeField page at' s w = s) ∨
    (∃ v, fieldPartly (at' w) = false ∧ fieldValue (at' w) = [v] ∧ takeField page at' s w = handSnoop f v s) := by
  rcases beat : at' w with _ | b
  · exact .inr (.inl ⟨rfl, rfl, by rw [takeField, beat]⟩)
  · have taken : takeField page at' s w = snoopBeat page w b s := by rw [takeField, beat]
    have low : b.enables.getLsbD 0 = decide (b.enables.toNat % 2 = 1) := by
      rw [BitVec.getLsbD, Nat.testBit_zero]
    have high : b.enables.getLsbD 1 = decide (b.enables.toNat / 2 % 2 = 1) := by
      rw [BitVec.getLsbD, Nat.testBit_succ, Nat.testBit_zero]
    rw [taken, snoopBeat, here, low, high, fieldValue, fieldPartly]
    have four : b.enables.toNat % 4 < 4 := Nat.mod_lt _ (by decide)
    have cut : b.enables.toNat % 4 = b.enables.toNat % 2 + 2 * (b.enables.toNat / 2 % 2) := by omega
    have faulted : raiseFault .partialControlWrite (.address (BitVec.ofNat 36 (page + w))) s =
      faultedState 6 (.address (BitVec.ofNat 36 (page + w))) s := raiseFault_of_normal _ _ normal
    rcases Nat.mod_two_eq_zero_or_one b.enables.toNat with e | e <;>
      rcases Nat.mod_two_eq_zero_or_one (b.enables.toNat / 2) with d | d
    · exact .inr (.inl (by simp [cut, e, d]))
    · exact .inl (by simpa [cut, e, d] using faulted)
    · exact .inl (by simpa [cut, e, d] using faulted)
    · exact .inr (.inr ⟨BitVec.ofNat 16 b.data.toNat, by simp [cut, e, d]⟩)

/-! ## The fault unit and the report queue -/

/-- Two states have the same fault unit, report queue, timecode and audio frame counter. -/
structure SameFaults (s t : State) : Prop where
  fault : t.fault = s.fault
  queue : t.report.queue = s.report.queue
  timing : t.timing = s.timing

theorem SameFaults.faulted {s t : State} (h : SameFaults s t) (k : Fin 8) (a : FailAddress) :
    SameFaults (faultedState k a s) (faultedState k a t) := by
  obtain ⟨fault, queue, timing⟩ := h
  refine ⟨?_, ?_, timing⟩
  · simp only [faultedState, fault]
  · simp only [faultedState, queue, timing]

theorem SameFaults.partlyFaulted {s t : State} (h : SameFaults s t) (page : Nat) (at' : Nat → Option Beat)
    (fields : List Nat) : SameFaults (partlyFaulted page at' fields s) (partlyFaulted page at' fields t) := by
  unfold Machine.partlyFaulted
  generalize (fields.filter fun w => fieldPartly (at' w)) = partly
  induction partly generalizing s t with
  | nil => exact h
  | cons w partly ih => exact ih (h.faulted ..)

theorem handSnoop_sameFaults (f : Snooped) (v : Count16) (s : State) : SameFaults s (handSnoop f v s) := by
  cases f <;> exact ⟨rfl, rfl, rfl⟩

/-- What some fields of a control-page write do from s to t. -/
structure FieldsTaken (page : Nat) (at' : Nat → Option Beat) (fields : List Nat) (s t : State) : Prop where
  command : t.command = { s.command with inbox := s.command.inbox ++ handedValues at' .producer fields }
  report : t.report = { s.report with
    inbox := s.report.inbox ++ handedValues at' .reportConsumed fields, queue := t.report.queue }
  label : t.label = { s.label with inbox := s.label.inbox ++ handedValues at' .labelConsumed fields }
  mixer : t.mixer = { s.mixer with gains := s.mixer.gains ++ handedGains at' fields }
  faults : SameFaults (partlyFaulted page at' fields s) t

theorem partlyFaulted_fault (page : Nat) (at' : Nat → Option Beat) (fields : List Nat) (s : State) :
    (partlyFaulted page at' fields s).fault =
      { s.fault with classes := (partlyFaulted page at' fields s).fault.classes } := by
  unfold partlyFaulted
  generalize (fields.filter fun w => fieldPartly (at' w)) = partly
  induction partly generalizing s with
  | nil => rfl
  | cons w partly ih => exact ih _

/-- One field more is taken before the others. -/
theorem FieldsTaken.cons {page w : Nat} {at' : Nat → Option Beat} {fields : List Nat} {f : Snooped} {t : State}
    (here : snoopedAt w = some f) (normal : s.isNormal = true)
    (rest : FieldsTaken page at' fields (takeField page at' s w) t) : FieldsTaken page at' (w :: fields) s t := by
  obtain ⟨command, report, label, mixer, faults⟩ := rest
  have values (g : Snooped) : handedValues at' g (w :: fields) =
      (if f = g then fieldValue (at' w) else []) ++ handedValues at' g fields := by
    simp only [handedValues, List.flatMap_cons, here, Option.some.injEq]
  have gains : handedGains at' (w :: fields) = f.gains (fieldValue (at' w)) ++ handedGains at' fields := by
    simp only [handedGains, List.flatMap_cons, here]
    rfl
  rcases takeField_cases here normal with ⟨partly, value, taken⟩ | ⟨whole, value, taken⟩ | ⟨v, whole, value, taken⟩
  · rw [taken] at command report label mixer faults
    refine ⟨?_, ?_, ?_, ?_, ?_⟩
    · rw [command, values, value, ite_self]; rfl
    · rw [report, values, value, ite_self]; rfl
    · rw [label, values, value, ite_self]; rfl
    · rw [mixer, gains, value, Snooped.gains_nil]; rfl
    · rw [partlyFaulted, List.filter_cons, if_pos partly]
      exact faults
  · rw [taken] at command report label mixer faults
    refine ⟨?_, ?_, ?_, ?_, ?_⟩
    · rw [command, values, value, ite_self]; rfl
    · rw [report, values, value, ite_self]; rfl
    · rw [label, values, value, ite_self]; rfl
    · rw [mixer, gains, value, Snooped.gains_nil]; rfl
    · rw [partlyFaulted, List.filter_cons, if_neg (by rw [whole]; nofun)]
      exact faults
  · rw [taken] at command report label mixer faults
    refine ⟨?_, ?_, ?_, ?_, ?_⟩
    · rw [command, values, value]
      cases f <;> simp [handSnoop]
    · rw [report, values, value]
      cases f <;> simp [handSnoop]
    · rw [label, values, value]
      cases f <;> simp [handSnoop]
    · rw [mixer, gains, value]
      cases f <;> simp [handSnoop, Snooped.gains]
    · obtain ⟨fault, queue, timing⟩ := (handSnoop_sameFaults f v s).partlyFaulted page at' fields
      rw [partlyFaulted, List.filter_cons, if_neg (by rw [whole]; nofun)]
      exact ⟨faults.fault.trans fault, faults.queue.trans queue, faults.timing.trans timing⟩

theorem takeField_isNormal {page w : Nat} {at' : Nat → Option Beat} {f : Snooped} (here : snoopedAt w = some f)
    (normal : s.isNormal = true) : (takeField page at' s w).isNormal = true := by
  rcases takeField_cases here normal with ⟨_, _, taken⟩ | ⟨_, _, taken⟩ | ⟨v, _, _, taken⟩
  · rw [taken]
    exact normal
  · rw [taken]
    exact normal
  · rw [taken]
    cases f <;> exact normal

theorem foldl_takeField (page : Nat) (at' : Nat → Option Beat) {fields : List Nat}
    (snooped : ∀ w ∈ fields, (snoopedAt w).isSome = true) (normal : s.isNormal = true) :
    FieldsTaken page at' fields s (fields.foldl (takeField page at') s) := by
  induction fields generalizing s with
  | nil =>
    refine ⟨?_, ?_, ?_, ?_, ⟨rfl, rfl, rfl⟩⟩ <;> simp [handedValues, handedGains]
  | cons w fields ih =>
    obtain ⟨f, here⟩ := Option.isSome_iff_exists.mp (snooped w List.mem_cons_self)
    exact .cons here normal
      (ih (fun v mem => snooped v (List.mem_cons_of_mem _ mem)) (takeField_isNormal here normal))

/-! ## The fields of the control page by owner -/

theorem handedValues_snooped {at' : Nat → Option Beat} {f : Snooped} (other : ∀ k, f ≠ .gain k) :
    handedValues at' f snoopedOffsets = handedValues at' f [0x0E00, 0x0E08, 0x0E10] := by
  rw [handedValues, snoopedOffsets, List.flatMap_append]
  refine (congrArg (· ++ _) (List.flatMap_eq_nil_iff.mpr fun w mem => if_neg fun same => ?_)).trans (List.nil_append _)
  obtain ⟨k, small, rfl⟩ := List.mem_map.mp mem
  have gain := snoopedAt_gain ⟨k, List.mem_range.mp small⟩
  exact other _ (Option.some.inj (same.symm.trans gain))

theorem handedGains_snooped (at' : Nat → Option Beat) : handedGains at' snoopedOffsets =
    (List.finRange 256).flatMap fun k => (fieldValue (at' (0x0400 + 8 * k.val))).map fun g => (k, g) := by
  have range : List.range 256 = (List.finRange 256).map Fin.val := List.map_coe_finRange_eq_range.symm
  rw [handedGains, snoopedOffsets, List.flatMap_append, range, List.map_map, List.flatMap_map]
  refine (congrArg (_ ++ ·) (show _ = [] from rfl)).trans ((List.append_nil _).trans ?_)
  refine List.flatMap_congr fun k _ => ?_
  simp only [Function.comp_apply, snoopedAt_gain]
  rfl

theorem partlyFaulted_classes (page : Nat) (at' : Nat → Option Beat) (fields : List Nat) (s : State) :
    (∀ k : Fin 8, k ≠ 6 → (partlyFaulted page at' fields s).fault.classes[k] = s.fault.classes[k]) ∧
      ((partlyFaulted page at' fields s).fault.classes[(6 : Fin 8)]).count = (s.fault.classes[(6 : Fin 8)]).count +
        BitVec.ofNat 16 (fields.filter fun w => fieldPartly (at' w)).length := by
  unfold partlyFaulted
  generalize (fields.filter fun w => fieldPartly (at' w)) = partly
  induction partly generalizing s with
  | nil => exact ⟨fun _ _ => rfl, (BitVec.add_zero _).symm⟩
  | cons w partly ih =>
    obtain ⟨others, count⟩ := ih (faultedState 6 (.address (BitVec.ofNat 36 (page + w))) s)
    refine ⟨fun k other => (others k other).trans ?_, count.trans ?_⟩
    · rw [faultedState, getElem_set_fin, if_neg other]
    · rw [faultedState, getElem_set_fin, if_pos rfl, List.length_cons, BitVec.ofNat_add partly.length 1,
        BitVec.add_comm (BitVec.ofNat 16 partly.length), ← BitVec.add_assoc]
      rfl

end Sys2Proof.Machine

open Sys2Proof Sys2Proof.Machine

/-- Settles O7: the beats of the write are the snooped fields in order, and each is whole, partly written or neither. -/
theorem snoopedFieldsAreHandedOver : Obligations.SnoopedFieldsAreHandedOver := by
  intro r us s₀ s beats arrives classified spans inside burst at' partlyWritten partly faulted
  obtain ⟨normal, free, _⟩ := id classified
  have aligned : 8 ∣ requestByte r - s.controlPage := by
    refine Nat.dvd_sub (Dvd.intro _ rfl) ?_
    exact Dvd.dvd.mul_right (by decide) _
  have run : arrive r s = snoopBeats s.controlPage (requestByte r - s.controlPage) beats (forwardedState r s) := by
    rw [arrive_of_classified classified, ← forwardRequest_of_tagFree free]
    simp only [classify, spans, pageOffset_of_in inside, controlPageRequest, burst]
    rfl
  have snooped : ∀ w ∈ snoopedOffsets, (snoopedAt w).isSome = true := by
    intro w mem
    rcases mem_snoopedOffsets_iff.mp mem with ⟨k, rfl⟩ | rfl | rfl | rfl
    · rw [snoopedAt_gain]
      rfl
    all_goals rfl
  have taken := foldl_takeField s.controlPage at' snooped (s := forwardedState r s) normal
  rw [← snoopBeats_eq aligned, ← run] at taken
  obtain ⟨command, report, label, mixer, fault, queue, timing⟩ := taken
  obtain ⟨classes, count⟩ := partlyFaulted_classes s.controlPage at' snoopedOffsets (forwardedState r s)
  obtain ⟨sameFault, sameQueue, -⟩ := SameFaults.partlyFaulted (s := s) (t := forwardedState r s) ⟨rfl, rfl, rfl⟩
    s.controlPage at' snoopedOffsets
  have changes := snoopBeats_changes s.controlPage (requestByte r - s.controlPage) beats (forwardedState r s)
  rw [← run] at changes
  have forwarded := forwardRequest_changes r s
  rw [forwardRequest_of_tagFree free] at forwarded
  have producer : handedValues at' .producer snoopedOffsets = fieldValue (at' 0x0E00) :=
    (handedValues_snooped fun _ same => by cases same).trans (List.append_nil _)
  have consumed : handedValues at' .reportConsumed snoopedOffsets = fieldValue (at' 0x0E08) :=
    (handedValues_snooped fun _ same => by cases same).trans (List.append_nil _)
  have labels : handedValues at' .labelConsumed snoopedOffsets = fieldValue (at' 0x0E10) :=
    (handedValues_snooped fun _ same => by cases same).trans (List.append_nil _)
  rw [producer] at command
  rw [consumed] at report
  rw [labels] at label
  rw [handedGains_snooped] at mixer
  rw [← fault] at classes count
  have onlyClasses := partlyFaulted_fault s.controlPage at' snoopedOffsets s
  refine ⟨_, exec_fabricRequest_of_arrives arrives, forwarded.comp changes, changes.path, command, report, label, mixer,
    ?_, classes, count, fault.trans sameFault, queue.trans sameQueue, fun none' => ?_⟩
  · rw [fault, sameFault]
    exact onlyClasses
  · have nothing : partlyFaulted s.controlPage at' snoopedOffsets s = s := by
      have empty : snoopedOffsets.filter (fun w => fieldPartly (at' w)) = [] := List.eq_nil_of_length_eq_zero none'
      rw [partlyFaulted, empty]
      rfl
    rw [fault, queue, sameFault, sameQueue, nothing]
    exact ⟨rfl, rfl⟩

end

section
/-! SUPPORT. Writes into AUDIO_IN and PICTURE windows, and one sample in its open frame (R5, R65-R68, R105). -/

set_option Elab.async false

namespace Sys2Proof.Machine

variable {s : State}

/-! ## The samples of a write (R66) -/

/-- The samples of one beat of a write into an AUDIO_IN window. -/
def beatSamples (first o : Nat) (b : Beat) : List (Fin 64 × Nat × Fin 48 × Sample) :=
  [0, 1].filterMap fun half =>
    match toFin 64 (first + o / 2048), toFin 48 (o % 256 / 4 + half) with
    | some x, some i =>
      if o % 256 < 192 ∧ b.enables.toNat / 16 ^ half % 16 = 15 then
        some (x, o % 2048 / 256, i, BitVec.ofNat 24 (b.data.toNat / 2 ^ (32 * half)))
      else none
    | _, _ => none

theorem tappedSamples_eq (first offset : Nat) (beats : List Beat) :
    tappedSamples first offset beats = beats.zipIdx.flatMap fun p => beatSamples first (offset + 8 * p.2) p.1 := rfl

/-- The samples in order, taken by the mixer. -/
def Mixer.takeAll (m : Mixer) (samples : List (Fin 64 × Nat × Fin 48 × Sample)) : Mixer :=
  samples.foldl (fun m x => m.takeSample x.1 x.2.1 x.2.2.1 x.2.2.2) m

theorem Mixer.takeAll_append (m : Mixer) (xs ys : List (Fin 64 × Nat × Fin 48 × Sample)) :
    m.takeAll (xs ++ ys) = (m.takeAll xs).takeAll ys := List.foldl_append

theorem Mixer.takeBeat_eq (first o : Nat) (b : Beat) (m : Mixer) :
    m.takeBeat first o b = m.takeAll (beatSamples first o b) := by
  rcases source : toFin 64 (first + o / 2048) with _ | x
  · simp only [Mixer.takeBeat, beatSamples, source, List.filterMap_cons_none, List.filterMap_nil]
    rfl
  · by_cases inside : o % 256 < 192
    · simp only [Mixer.takeBeat, Mixer.takeContainer, beatSamples, source, inside, bit, Bool.false_eq_true, if_true,
        if_false, true_and, List.filterMap_cons, List.filterMap_nil]
      rcases toFin 48 (o % 256 / 4 + 0) with _ | i <;> rcases toFin 48 (o % 256 / 4 + 1) with _ | j <;>
        dsimp only <;> (try split_ifs) <;> rfl
    · simp only [Mixer.takeBeat, beatSamples, source, inside, if_false, false_and, List.filterMap_cons]
      rcases toFin 48 (o % 256 / 4 + 0) with _ | i <;> rcases toFin 48 (o % 256 / 4 + 1) with _ | j <;> rfl

theorem Mixer.takeBurst_eq (first offset : Nat) (beats : List Beat) (m : Mixer) :
    m.takeBurst first offset beats = m.takeAll (tappedSamples first offset beats) := by
  have general (k : Nat) : m.takeBurst first (offset + 8 * k) beats =
      m.takeAll ((beats.zipIdx k).flatMap fun p => beatSamples first (offset + 8 * p.2) p.1) := by
    induction beats generalizing k m with
    | nil => rfl
    | cons b beats ih =>
      rw [List.zipIdx_cons, List.flatMap_cons, Mixer.takeAll_append, Mixer.takeBurst, Mixer.takeBeat_eq]
      exact ih _ (k + 1)
  exact general 0

/-! ## One sample in an open frame (R65-R68) -/

theorem slotPlace_cases {f : Count32} {slot : Nat} :
    (slot = (f.toNat + 7) % 8 → slotPlace f slot = .late) ∧
    (slot ≠ (f.toNat + 7) % 8 → slot ≠ f.toNat % 8 → slot ≠ (f.toNat + 1) % 8 → slotPlace f slot = .outOfWindow) ∧
    (slot = (f.toNat + 0) % 8 → slotPlace f slot = .current) ∧ (slot = (f.toNat + 1) % 8 → slotPlace f slot = .next) := by
  unfold slotPlace
  refine ⟨fun late => ?_, fun notLate notCurrent notNext => ?_, fun current => ?_, fun next => ?_⟩
  · rw [if_neg (by omega), if_neg (by omega), if_pos late]
  · rw [if_neg notCurrent, if_neg notNext, if_neg notLate]
  · rw [if_pos (by omega)]
  · rw [if_neg (by omega), if_pos next]

theorem Mixer.openFrame_setFrame (m : Mixer) (next next' : Bool) (f : MixFrame) :
    (m.setFrame next f).openFrame next' = if next' = next then f else m.openFrame next' := by
  cases next <;> cases next' <;> rfl

/-- A product goes to one accumulator, or marks its row bad (R89, R92). -/
theorem MixFrame.addProduct_other (i : Fin 48) (x : Sample) (f : MixFrame) (q : Route) {b : Fin 16}
    (other : q.record.bus ≠ b) :
    (f.addProduct i x q).rows[b] = f.rows[b] ∧ (f.addProduct i x q).rowBad[b] = f.rowBad[b] := by
  unfold MixFrame.addProduct
  dsimp only
  split
  · exact ⟨rfl, by rw [getElem_set_fin, if_neg (Ne.symm other)]⟩
  · exact ⟨by rw [MixFrame.setAccumulator, getElem_set_fin, if_neg (Ne.symm other)], rfl⟩

theorem MixFrame.addProduct_same (i : Fin 48) (x : Sample) (f : MixFrame) (q : Route) (j : Fin 48) :
    (f.addProduct i x q).rows[q.record.bus][j] =
      (if j = i ∧ (f.rows[q.record.bus][i]).parityBad = false then
        { value := BitVec.ofInt 48 ((f.rows[q.record.bus][i]).value.toInt + q.product i x), parityBad := false }
      else f.rows[q.record.bus][j]) ∧
    ((f.rows[q.record.bus][i]).parityBad = true → (f.addProduct i x q).rowBad[q.record.bus] = true) := by
  unfold MixFrame.addProduct
  dsimp only
  rcases bad : (f.rows[q.record.bus][i]).parityBad with _ | _
  · rw [if_neg nofun, MixFrame.setAccumulator, getElem_set_fin, if_pos rfl, getElem_set_fin]
    simp
  · rw [if_pos rfl]
    simp

theorem MixFrame.addProduct_others (i : Fin 48) (x : Sample) (f : MixFrame) (q : Route) :
    (f.addProduct i x q).routes = f.routes ∧ (f.addProduct i x q).arrivals = f.arrivals := by
  unfold MixFrame.addProduct
  dsimp only
  split <;> exact ⟨rfl, rfl⟩

/-- The products of one sample, one for each route. -/
def MixFrame.addProducts (i : Fin 48) (x : Sample) (f : MixFrame) (qs : List Route) : MixFrame :=
  qs.foldl (MixFrame.addProduct i x) f

theorem MixFrame.addProducts_others (i : Fin 48) (x : Sample) (f : MixFrame) (qs : List Route) :
    (f.addProducts i x qs).routes = f.routes ∧ (f.addProducts i x qs).arrivals = f.arrivals := by
  induction qs generalizing f with
  | nil => exact ⟨rfl, rfl⟩
  | cons q qs ih =>
    obtain ⟨routes, arrivals⟩ := ih (f.addProduct i x q)
    obtain ⟨routes', arrivals'⟩ := f.addProduct_others i x q
    exact ⟨routes.trans routes', arrivals.trans arrivals'⟩

theorem MixFrame.addProducts_of_none (i : Fin 48) (x : Sample) {f : MixFrame} {qs : List Route} {b : Fin 16}
    (none' : ∀ q ∈ qs, q.record.bus ≠ b) :
    (f.addProducts i x qs).rows[b] = f.rows[b] ∧ (f.addProducts i x qs).rowBad[b] = f.rowBad[b] := by
  induction qs generalizing f with
  | nil => exact ⟨rfl, rfl⟩
  | cons q qs ih =>
    obtain ⟨rows, bad⟩ := ih (f := f.addProduct i x q) fun p mem => none' p (List.mem_cons_of_mem _ mem)
    obtain ⟨rows', bad'⟩ := f.addProduct_other i x q (none' q List.mem_cons_self)
    exact ⟨rows.trans rows', bad.trans bad'⟩

/-- With no two routes of one bus, a bus takes the product of its own route only. -/
theorem MixFrame.addProducts_of_route (i : Fin 48) (x : Sample) {f : MixFrame} {qs : List Route} {q : Route}
    (mem : q ∈ qs) (apart : (qs.map fun q => q.record.bus).Nodup) :
    (f.addProducts i x qs).rows[q.record.bus] = (f.addProduct i x q).rows[q.record.bus] ∧
      ((f.rows[q.record.bus][i]).parityBad = true → (f.addProducts i x qs).rowBad[q.record.bus] = true) := by
  obtain ⟨before, after, rfl⟩ := List.append_of_mem mem
  rw [List.map_append, List.map_cons, List.nodup_middle, List.nodup_cons, ← List.map_append] at apart
  obtain ⟨alone, -⟩ := apart
  have others : ∀ p ∈ before ++ after, p.record.bus ≠ q.record.bus := fun p mem same =>
    alone (List.mem_map.mpr ⟨p, mem, same⟩)
  obtain ⟨rows, -⟩ := MixFrame.addProducts_of_none i x (f := f) (qs := before) fun p mem =>
    others p (List.mem_append_left _ mem)
  obtain ⟨rows', bad'⟩ := MixFrame.addProducts_of_none i x
    (f := (f.addProducts i x before).addProduct i x q) (qs := after) fun p mem => others p (List.mem_append_right _ mem)
  have run : f.addProducts i x (before ++ q :: after) =
      ((f.addProducts i x before).addProduct i x q).addProducts i x after := List.foldl_append
  rw [run, rows', bad']
  refine ⟨Vector.ext fun j hj => ?_, fun bad => ?_⟩
  · obtain ⟨taken, -⟩ := (f.addProducts i x before).addProduct_same i x q ⟨j, hj⟩
    obtain ⟨taken', -⟩ := f.addProduct_same i x q ⟨j, hj⟩
    rw [rows] at taken
    exact taken.trans taken'.symm
  · obtain ⟨-, marked⟩ := (f.addProducts i x before).addProduct_same i x q i
    rw [rows] at marked
    exact marked bad

end Sys2Proof.Machine

open Sys2Proof Sys2Proof.Machine

/-- Settles O9: the beats of the write are its samples in order; a PICTURE write is one frame completion or none. -/
theorem audioAndPictureWritesAreTapped : Obligations.AudioAndPictureWritesAreTapped := by
  intro r us s₀ s w arrives classified window kind o forwarded slotBytes slot final
  obtain ⟨_, free, _⟩ := id classified
  obtain ⟨_, _, found⟩ := id window
  have run : arrive r s = classifyWindow r s := by
    rw [arrive_of_classified classified, classify_of_windowIs window]
  have sent := forwardRequest_of_tagFree free
  refine ⟨fun ⟨n, burst⟩ => ?_, fun beats burst => ⟨fun audio => ?_, fun camera picture object => ?_⟩⟩
  · rw [exec_fabricRequest_of_arrives arrives, run, classifyWindow_of_read found burst, windowRead]
    rcases kind with kind | kind <;> rw [kind] <;> exact congrArg _ sent
  · rw [exec_fabricRequest_of_arrives arrives, run, classifyWindow_of_write found burst]
    simp only [windowWrite, audio, sent, Mixer.takeBurst_eq]
    rfl
  · rw [exec_fabricRequest_of_arrives arrives, run, classifyWindow_of_write found burst]
    have place : toFin 8 w.object.toNat = some camera := toFin_eq_some_iff.mpr object
    simp only [windowWrite, picture, sent, pictureTap, place, Bool.and_eq_true, decide_eq_true_eq, and_assoc]
    rfl

/-- Settles O10: the slot decides, and in an open frame each bus takes the product of its own route. -/
theorem sampleGoesToItsOpenFrame : Obligations.SampleGoesToItsOpenFrame := by
  intro m source slot i x apart f old m'
  have taken : m' = m.takeSample source slot.val i x := rfl
  clear_value m'
  obtain ⟨late, outside, current, next⟩ := slotPlace_cases (f := m.frame) (slot := slot.val)
  refine ⟨fun h => ?_, fun h h' h'' => ?_, fun isNext h => ?_⟩
  · rw [taken, Mixer.takeSample, late h]
  · rw [taken, Mixer.takeSample, outside h h' h'']
  · have run : m' = m.sampleIn isNext source i x := by
      cases isNext
      · rw [taken, Mixer.takeSample, current h]
      · rw [taken, Mixer.takeSample, next h]
    intro o o'
    refine ⟨fun again => ?_, fun first => ?_⟩
    · rw [run, Mixer.sampleIn]
      exact if_pos again
    · have state : m' = { m.setFrame isNext (o.addSample source i x) with
          sources := m.sources.set source { m.sources[source] with active := true, idleRun := 0 } } := by
        rw [run, Mixer.sampleIn]
        exact if_neg (Bool.eq_false_iff.mp first)
      have frame (q : Bool) : m'.openFrame q = if q = isNext then o.addSample source i x else m.openFrame q := by
        rw [state]
        exact m.openFrame_setFrame isNext q _
      have opened : o' = o.addSample source i x := (frame isNext).trans (if_pos rfl)
      obtain ⟨routes, arrivals⟩ := MixFrame.addProducts_others i x o (o.routes.filter fun q => q.record.source == source)
      have rows : o'.rows = (o.addProducts i x (o.routes.filter fun q => q.record.source == source)).rows := by
        rw [opened]
        rfl
      have bad : o'.rowBad = (o.addProducts i x (o.routes.filter fun q => q.record.source == source)).rowBad := by
        rw [opened]
        rfl
      refine ⟨by rw [state], (frame _).trans (if_neg (by cases isNext <;> decide)), ?_, fun y j => ?_, fun b j => ?_⟩
      · rw [opened]
        exact routes
      · rw [opened]
        change ((MixFrame.addProducts i x o _).arrivals.set source
          ((MixFrame.addProducts i x o _).arrivals[source] ||| (1#48 <<< i.val)))[y].getLsbD j.val = _
        rw [arrivals, getElem_set_fin]
        by_cases here : y = source
        · subst here
          have place : (1#48 <<< i.val).getLsbD j.val = (j == i) := by
            refine (BitVec.getLsbD_twoPow i.val j.val).trans ?_
            rw [decide_eq_true i.isLt, Bool.true_and, Bool.eq_iff_iff, decide_eq_true_iff, beq_iff_eq, Fin.ext_iff]
            exact eq_comm
          rw [if_pos rfl, BitVec.getLsbD_or, place, beq_self_eq_true, Bool.true_and]
        · rw [if_neg here, beq_eq_false_iff_ne.mpr here, Bool.false_and, Bool.or_false]
      · have same : (o.routes.find? fun q => q.record.bus == b && q.record.source == source) =
            (o.routes.filter fun q => q.record.source == source).find? fun q => q.record.bus == b := by
          rw [List.find?_filter]
          exact congrArg (List.find? · o.routes) (funext fun q => by
            rw [Bool.decide_and, Bool.and_comm, Bool.decide_eq_true, Bool.decide_eq_true])
        have apart' : ((o.routes.filter fun q => q.record.source == source).map fun q => q.record.bus).Nodup := by
          refine List.pairwise_map.mpr ((List.pairwise_map.mp (apart isNext)).filter _ |>.imp_of_mem ?_)
          intro p q left right differ sameBus
          have left := (List.mem_filter.mp left).2
          have right := (List.mem_filter.mp right).2
          exact differ (Prod.ext sameBus ((beq_iff_eq.mp left).trans (beq_iff_eq.mp right).symm))
        rw [same, rows, bad]
        generalize (o.routes.filter fun q => q.record.source == source) = qs at *
        generalize here : qs.find? (fun q => q.record.bus == b) = route
        rcases route with _ | q
        · have none' : ∀ q ∈ qs, q.record.bus ≠ b := by simpa using here
          obtain ⟨kept, -⟩ := MixFrame.addProducts_of_none i x (f := o) none'
          rw [kept]
        · obtain rfl : q.record.bus = b := by simpa using List.find?_some here
          obtain ⟨taken, marked⟩ := MixFrame.addProducts_of_route i x (f := o) (List.mem_of_find?_eq_some here) apart'
          obtain ⟨added, -⟩ := o.addProduct_same i x q j
          rw [taken, added]
          by_cases index : j = i
          · subst index
            rw [beq_self_eq_true]
            rcases parity : (o.rows[q.record.bus][j]).parityBad with _ | _
            · simp
            · simpa using marked parity
          · rw [beq_eq_false_iff_ne.mpr index, if_neg (fun h => index h.1)]

end

section
/-! SUPPORT. CODED window requests: hint reads, payload taps and markers (R14, R129-R133, R137, R142), and clip tables
without a parity error (R120, R126). -/

set_option Elab.async false

namespace Sys2Proof.Machine

variable {s : State}

/-! ## Clip tables without a parity error (R126) -/

/-- With no parity error in the clip table a read of records drops none. -/
theorem readClips_of_good (h : s.ClipsGood) (wanted : Clip → Bool) : readClips wanted s = s := by
  have kept (is : List (Fin 32)) : is.foldl (fun s i =>
      match s.label.clips[i] with
      | some c => if wanted c && c.parityBad then dropBadClip i s else s
      | none => s) s = s := by
    induction is with
    | nil => rfl
    | cons i is ih =>
      rw [List.foldl_cons]
      rcases held : s.label.clips[i] with _ | c
      · exact ih
      · simp only [h i c held, Bool.and_false, Bool.false_eq_true, if_false]
        exact ih
  exact kept _

theorem updateClips_eq {wanted : Clip → Bool} {f change : Clip → Clip}
    (h : ∀ c, (if wanted c then f c else c) = change c) (s : State) :
    updateClips wanted f s = { s with label := { s.label with
      clips := Vector.ofFn fun i => (s.label.clips[i]).map change } } := by
  obtain rfl : (fun c => if wanted c then f c else c) = change := funext h
  rfl

/-! ## The bytes a write enables (R129) -/

theorem writtenOffsets_eq (offset : Nat) (beats : List Beat) :
    writtenOffsets offset beats = enabledOffsets offset beats := by
  have general (k : Nat) : writtenOffsets (offset + 8 * k) beats = (beats.zipIdx k).flatMap fun p =>
      ((List.range 8).filter fun j => p.1.enables.getLsbD j).map fun j => offset + 8 * p.2 + j := by
    induction beats generalizing k with
    | nil => rfl
    | cons b beats ih =>
      rw [List.zipIdx_cons, List.flatMap_cons, writtenOffsets]
      exact congrArg (_ ++ ·) (ih (k + 1))
  exact general 0

/-! ## The hint beat (R142, 11.4) -/

theorem leBytes_ofLE {bs : List Byte} {n : Nat} (h : bs.length = n) : leBytes n (ofLE bs) = bs := by
  subst h
  induction bs with
  | nil => rfl
  | cons b bs ih =>
    have low : BitVec.ofNat 8 (b.toNat + 256 * ofLE bs) = b := by
      refine BitVec.eq_of_toNat_eq ?_
      have := b.isLt
      rw [BitVec.toNat_ofNat]
      omega
    have high : (b.toNat + 256 * ofLE bs) / 256 = ofLE bs := by
      have := b.isLt
      omega
    rw [List.length_cons, ofLE, leBytes, low, high, ih]

theorem bytesOfWords_ofLE {bs : List Byte} (h : bs.length = 8) : bytesOfWords [BitVec.ofNat 64 (ofLE bs)] = bs := by
  have small : ofLE bs < 2 ^ 64 := by
    have := ofLE_lt bs
    rw [h] at this
    exact this
  rw [bytesOfWords, List.flatMap_singleton, BitVec.toNat_ofNat, Nat.mod_eq_of_lt small, leBytes_ofLE h]

theorem Stream.hintWord_bytes (x : Stream) : bytesOfWords [x.hintWord] =
    layout [(1, x.hint), (1, if x.keyRequest then 1 else 0), (2, x.fill / 1024), (4, x.lastAdmitted.toNat)] := by
  rw [Stream.hintWord, bytesOfWords_ofLE (by simp [leBytes_length, flagByte])]
  simp [layout, flagByte_eq]

/-! ## Payload taps (R137) -/

theorem Stream.tapped_eq (x : Stream) (ring : Nat) (written : List Nat) :
    let hit := x.pictures.filter fun p => p.overrunBy ring written
    let left := x.pictures.map fun p => if p.overrunBy ring written then { p with state := .corrupt } else p
    x.tapped ring written =
      { x with
        pictures := if x.claim = none then left.dropWhile fun p => p.state == .corrupt else left
        fill := x.fill - (hit.map (·.unsent)).sum
        keyRequest := x.keyRequest || !hit.isEmpty
        notices := hit.foldl
          (fun ns p => addNotice p.number p.number (decide (p.unsent < p.length)) ns) x.notices
        claim := x.claim.map fun c => { c with
          isVoid := c.isVoid || (x.pictures.head?.map fun p => p.overrunBy ring written).getD false } } := by
  have void (c : Claim) : c.afterTap x.pictures ring written = { c with
      isVoid := c.isVoid || (x.pictures.head?.map fun p => p.overrunBy ring written).getD false } := by
    rcases x.pictures with _ | ⟨p, rest⟩
    · simp [Claim.afterTap]
    · rcases hit : p.overrunBy ring written with _ | _ <;> simp [Claim.afterTap, hit]
  intro hit left
  unfold Stream.tapped
  simp only [void]
  rcases claim : x.claim with _ | c <;> rfl

/-! ## Markers (R130-R132) -/

theorem Marker.valid_iff (m : Marker) (enables : BitVec 8) (ring : Nat) : m.valid enables ring = true ↔
    ¬ (enables ≠ 0xFF ∨ m.length = 0 ∨ ring < m.length ∨ 1 < m.kind ∨ ring ≤ m.offset) := by
  simp only [Marker.valid, allEnabled, Bool.and_eq_true, beq_iff_eq, bne_iff_ne, decide_eq_true_eq, not_or, not_lt,
    not_le, ne_eq, not_not, and_assoc]

theorem Stream.fits_iff (x : Stream) (length : Nat) :
    x.fits length = true ↔ x.pictures.length < 16 ∧ x.fill + length ≤ x.capacity := by
  rw [Stream.fits, Bool.and_eq_true, decide_eq_true_iff, decide_eq_true_iff]
  rfl

/-- An admitted picture takes the next number and its place at the tail (R130, R131). -/
theorem admitPicture_eq (n : Fin 4) (ring : Nat) (m : Marker) (s : State) :
    admitPicture n ring m (s.setStream n { s.stream n with counter := (s.stream n).counter + 1 }) =
      let x := s.stream n
      pictureAdmitted (x.counter + 1) x.camera (s.setStream n
        { x with
          counter := x.counter + 1
          lastAdmitted := x.counter + 1
          fill := x.fill + m.length
          keyRequest := if m.kind = 1 then false else x.keyRequest
          pictures := x.pictures ++
            [{ number := x.counter + 1, start := (m.offset + ring - m.length) % ring, length := m.length,
               key := m.kind == 1, timecode := s.timing.timecode, unsent := m.length, state := .queued }] }) := by
  rw [admitPicture, State.setStream_stream_same, State.setStream_setStream]
  rfl

/-- A dropped picture takes the next number (R130, R132). -/
theorem dropPicture_eq (n : Fin 4) (s : State) :
    dropPicture n (s.setStream n { s.stream n with counter := (s.stream n).counter + 1 }) =
      let x := s.stream n
      pictureDropped x.camera (offer n.val (.stream 1 0 0 (x.counter + 1)) (s.setStream n
        { x with
          counter := x.counter + 1
          keyRequest := true
          notices := addNotice (x.counter + 1) (x.counter + 1) false x.notices })) := by
  rw [dropPicture, State.setStream_stream_same, State.setStream_setStream]
  rfl

end Sys2Proof.Machine

open Sys2Proof Sys2Proof.Machine

/-- Settles O11: the offset in the window decides between hint, payload and marker, and each is its own rule. -/
theorem codedWindowRequestsReachTheGovernor : Obligations.CodedWindowRequestsReachTheGovernor := by
  refine ⟨?requests, fun x => ?hint, fun first last flag ns => ⟨fun room => addNotice_of_room room .., ?widened⟩,
    fun number s => ⟨rfl, rfl, fun good camera => ?clips⟩⟩
  case requests =>
    intro r us s₀ s w n arrives classified window coded object o ring x forwarded
    obtain ⟨normal, free, _⟩ := id classified
    obtain ⟨_, _, found⟩ := id window
    have run : exec (.fabricRequest r us) s₀ = .next (classifyWindow r s) := by
      rw [exec_fabricRequest_of_arrives arrives, arrive_of_classified classified, classify_of_windowIs window]
    have sent := forwardRequest_of_tagFree free
    have place : toFin 4 w.object.toNat = some n := toFin_eq_some_iff.mpr object
    have wrote (beats : List Beat) (burst : r.burst = .write beats) :
        exec (.fabricRequest r us) s₀ = .next (codedTap w r o beats forwarded) := by
      rw [run, classifyWindow_of_write found burst, windowWrite, sent, coded]
    refine ⟨fun k burst => ?_, fun beats burst above => ?_, fun beats burst below => ?_, fun b beats burst at_ => ?_⟩
    · rw [run, classifyWindow_of_read found burst]
      have hint : readsHint w o k = true ↔ ring ≤ o ∧ o ≤ ring + 8 ∧ ring + 8 < o + 8 * k := by
        simp only [readsHint, Bool.and_eq_true, decide_eq_true_eq, and_assoc]
        rfl
      refine ⟨fun reads => ?_, fun misses => ?_⟩
      · simp only [windowRead, coded, place]
        rw [if_pos (hint.mpr reads), interceptRead_of_tagFree free]
        rfl
      · simp only [windowRead, coded, place]
        rw [if_neg (fun reads => misses (hint.mp reads)), sent]
    · rw [wrote beats burst]
      simp only [codedTap, place]
      rw [if_neg (Nat.not_lt.mpr above.le), if_neg (Nat.ne_of_gt above)]
    · intro written overrun hit left
      rw [wrote beats burst]
      simp only [codedTap, place]
      rw [if_pos below, payloadTap, Stream.tapped_eq, writtenOffsets_eq]
      rfl
    · intro length endOffset kind
      rw [wrote _ burst]
      simp only [codedTap, place]
      rw [if_neg (by omega), if_pos at_, markerWrite]
      dsimp only
      by_cases valid : (Marker.ofWord b.data).valid b.enables w.ringBytes = true
      · have sound : ¬ (b.enables ≠ 0xFF ∨ length = 0 ∨ ring < length ∨ 1 < kind ∨ ring ≤ endOffset) :=
          (Marker.valid_iff ..).mp valid
        rw [if_pos valid, if_neg sound, State.setStream_stream_same]
        by_cases fits : x.pictures.length < 16 ∧ x.fill + length ≤ x.capacity
        · rw [if_pos fits]
          exact congrArg _ ((if_pos ((Stream.fits_iff ..).mpr fits)).trans (admitPicture_eq ..))
        · rw [if_neg fits]
          exact congrArg _ ((if_neg fun h => fits ((Stream.fits_iff ..).mp h)).trans (dropPicture_eq ..))
      · have bad : b.enables ≠ 0xFF ∨ length = 0 ∨ ring < length ∨ 1 < kind ∨ ring ≤ endOffset :=
          not_not.mp fun h => valid ((Marker.valid_iff ..).mpr h)
        rw [if_neg valid, if_pos bad]
        exact congrArg _ (raiseFault_of_normal .badMarker (failAt r.addr) normal)
  case hint =>
    intro bs
    have eq : bs = layout _ := x.hintWord_bytes
    clear_value bs
    subst eq
    exact ⟨layout_holds 0, layout_holds 1, layout_holds 2, layout_holds 3⟩
  case widened =>
    rintro older y rfl full
    exact addNotice_of_full full ..
  case clips =>
    intro openOn
    rw [pictureAdmitted, pictureDropped, readClips_of_good good]
    refine ⟨updateClips_eq (fun c => ?_) s, updateClips_eq (fun c => rfl) s⟩
    have updated (x : Option (Count32 × Count32)) : (match x with
        | none => some (number, number)
        | some (first, _) => some (first, number)) = some ((x.map (·.1)).getD number, number) := by
      rcases x with _ | ⟨first, last⟩ <;> rfl
    exact congrArg (fun p => if openOn c then { c with pictures := p } else c) (updated c.pictures)

end

section
/-! SUPPORT. The records the part writes as runs of fields, and the head of the label ring (R122, 11.3). -/

set_option Elab.async false

namespace Sys2Proof.Machine

variable {s : State}

/-! ## Runs of fields -/

/-- The fields of a run stand one behind the other from an offset on. -/
def HoldsRun (bs : List Byte) : Nat → List (Nat × Nat) → Prop
  | _, [] => True
  | offset, f :: fields => Holds bs offset f.1 f.2 ∧ HoldsRun bs (offset + f.1) fields

theorem layout_holdsRun (fields : List (Nat × Nat)) : HoldsRun (layout fields) 0 fields := by
  have general (front rest : List (Nat × Nat)) :
      HoldsRun (layout (front ++ rest)) ((front.map (·.1)).sum) rest := by
    induction rest generalizing front with
    | nil => trivial
    | cons f rest ih =>
      refine ⟨layout_holds front.length ?_ ?_, ?_⟩
      · simp
      · simp [layoutOffset]
      · have later := ih (front ++ [f])
        rw [List.append_assoc, List.map_append, List.sum_append, List.map_singleton, List.sum_singleton] at later
        exact later
  exact general [] fields

/-! ## Report records (11.3) -/

/-- The fields of the detail of a report. -/
def Detail.fields : Detail → List (Nat × Nat)
  | .lineFunction o => [(1, match o with | .started => 1 | .halted => 2 | .cleared => 3), (19, 0)]
  | .lineSignal los sync => [(1, if los then 1 else 0), (1, sync.code), (18, 0)]
  | .sendList o a => [(1, match o with | .held => 1 | .done => 2 | .error => 3), (7, 0), (8, a), (4, 0)]
  | .stream d c f p => [(4, d), (4, c), (4, f), (4, p.toNat), (4, 0)]
  | .audioUnderrun x => [(8, x.toNat), (12, 0)]
  | .busSaturation x n => [(2, x.toNat), (2, 0), (4, n), (12, 0)]
  | .reference x => [(1, x.code), (19, 0)]
  | .markOverwrite x => [(1, x.toNat), (19, 0)]
  | .clipRefused x n => [(1, x.toNat), (3, 0), (4, n), (12, 0)]
  | .fault a n => [(8, a.value), (4, n), (8, 0)]
  | .measure n => [(4, n.toNat), (16, 0)]

theorem Detail.bytes_eq (d : Detail) : d.bytes = layout d.fields := by
  cases d <;> simp [Detail.bytes, Detail.fields, layout, padTo, leBytes_length, leBytes_zero, bit] <;> rfl

theorem Detail.bytes_length (d : Detail) : d.bytes.length = 20 := by
  rw [Detail.bytes_eq, layout_length]
  cases d <;> rfl

/-- The fields of a report record. -/
def Record.fields (r : Record) : List (Nat × Nat) :=
  [(1, r.detail.kind), (1, r.object), (2, r.repeats), (1, r.timecode.ff), (1, r.timecode.ss), (1, r.timecode.mm),
    (1, r.timecode.hh), (4, r.audioCount.toNat)] ++ r.detail.fields

theorem Record.bytes_eq (r : Record) : r.bytes = layout r.fields := by
  rw [Record.bytes, Record.fields, layout_append, ← Detail.bytes_eq, Timecode.bytes_eq]
  simp [layout]

theorem Record.bytes_length (r : Record) : r.bytes.length = 32 := by
  rw [Record.bytes]
  simp [leBytes_length, r.detail.bytes_length, Timecode.bytes]

/-! ## Label records (11.3) -/

/-- The presence flags and clip flags of a label record, from bit 0 up. -/
def Clip.flagList (c : Clip) : List Bool :=
  [c.good, c.unlocked, c.peak.isSome, c.pictures.isSome, c.splitFrom.isSome, c.closing.isSome, c.overwritten]

theorem Clip.flags_eq (c : Clip) : c.flags = flagsValue c.flagList := by
  simp only [Clip.flags, Clip.flagList, flagsValue]
  omega

/-- The fields of a label record. -/
def Clip.fields (c : Clip) : List (Nat × Nat) :=
  [(2, c.id.toNat), (1, c.camera.val), (1, c.flags), (1, c.inTimecode.ff), (1, c.inTimecode.ss), (1, c.inTimecode.mm),
    (1, c.inTimecode.hh), (4, c.inVideo.toNat), (4, c.inAudio.toNat)] ++
  (match c.closing with
    | some k => [(1, k.timecode.ff), (1, k.timecode.ss), (1, k.timecode.mm), (1, k.timecode.hh),
        (4, k.videoCount.toNat), (4, k.audioCount.toNat)]
    | none => [(12, 0)]) ++
  [(4, c.recorded.toNat), (4, c.dropped.toNat), (4, c.peak.getD 0)] ++
  (match c.pictures with
    | some (first, last) => [(4, first.toNat), (4, last.toNat), (4, c.pictureDrops.toNat)]
    | none => [(12, 0)]) ++
  [(2, (c.splitFrom.map (·.toNat)).getD 0), (10, 0)]

theorem Clip.bytes_eq (c : Clip) : c.bytes = layout c.fields := by
  have split : (c.splitFrom.getD 0).toNat = (c.splitFrom.map (·.toNat)).getD 0 := by cases c.splitFrom <;> rfl
  unfold Clip.bytes Clip.fields
  rw [split]
  rcases c.closing with _ | k <;> rcases c.pictures with _ | ⟨first, last⟩ <;>
    simp [layout, padTo, leBytes_length, leBytes_zero, Timecode.bytes_eq]

theorem Clip.bytes_length (c : Clip) : c.bytes.length = 64 := by
  rw [Clip.bytes_eq, layout_length, Clip.fields]
  rcases c.closing with _ | k <;> rcases c.pictures with _ | ⟨first, last⟩ <;> simp

/-! ## The label ring's head (R122) -/

/-- The ring's head is the first record of the list whose ring done flag is clear. -/
theorem Label.ringHead_of_first {x : Label} {before after : List (Fin 32)} {i : Fin 32} {c : Clip} {k : Closing}
    (order : x.order = before ++ i :: after)
    (done : ∀ j ∈ before, ∀ d k, x.clips[j] = some d → d.closing = some k → k.ringDone = true)
    (held : x.clips[i] = some c) (closing : c.closing = some k) (owed : k.ringDone = false) : x.ringHead = some i := by
  have skipped : ∀ j ∈ before, (match x.clips[j] with
      | some c => c.closedWith fun k => !k.ringDone
      | none => false) = false := by
    intro j mem
    rcases there : x.clips[j] with _ | d
    · rfl
    · rcases closed : d.closing with _ | k'
      · simp only [Clip.closedWith, closed]
      · simp only [Clip.closedWith, closed, done j mem d k' there closed, Bool.not_true]
  refine List.find?_eq_some_iff_append.mpr ⟨?_, before, after, order, fun j mem => ?_⟩
  · simp only [held, Clip.closedWith, closing, owed, Bool.not_false]
  · exact congrArg Bool.not (skipped j mem)

end Sys2Proof.Machine

open Sys2Proof Sys2Proof.Machine

/-- Settles O33: the conditions of R33 and R122 hold as given, and the records are runs of fields. -/
theorem postsArePresentedAtTheWriteSlot : Obligations.PostsArePresentedAtTheWriteSlot := by
  refine ⟨?report, ?label, fun r => ?record, fun c => ?clip⟩
  case report =>
    intro s w normal running window room write
    have ring : s.reportRing = 128 * w.size.toNat := by rw [State.reportRing, window]; rfl
    have may : s.mayPost = true := by
      simp only [State.mayPost, normal, running, window, Report.unread, ring, room]
      rfl
    have request (r : Record) :
        s.postRequest r = { addr := beatOf (w.first + 32 * s.report.slot), burst := fullWrite r.bytes } := by
      rw [State.postRequest, window]
      rfl
    refine ⟨fun r rest empty queue => ?_, fun p post waits => ?_⟩
    · change execReportPost s = _
      simp only [execReportPost, may, empty, queue, if_true, presentPost]
      exact congrArg (fun q => Host.Outcome.next (makeRequest reportQueue { purpose := .reportPost false, fixed := some q }
        { s with report := { s.report with queue := rest, post := some { record := r, presented := true } } }))
        (request r)
    · change execReportPost s = _
      simp only [execReportPost, may, post, waits, if_true, presentPost, request]
      rfl
  case label =>
    intro us s₀ s w before after i c arrived normal running window landed room good order done held
      ⟨k, closing, owed, hold⟩
    have head := Label.ringHead_of_first order done held closing owed
    have ring : s.labelRing = 64 * w.size.toNat := by rw [State.labelRing, window]; rfl
    have may : s.mayPostLabel = true := by
      simp only [State.mayPostLabel, normal, running, window, landed, Label.unread, ring, room]
      rfl
    have none' : settle ringDropBad 32 s = s := by
      have sound : ringDropBad s = (s, false) := by
        simp only [ringDropBad, head, held, good i c held, Bool.false_eq_true, if_false]
      rw [settle, sound]
    have released : c.released = true := by
      simp only [Clip.released, Clip.closedWith, closing, hold, beq_self_eq_true]
    have request : s.labelRequest c = { addr := beatOf (w.first + 64 * s.label.slot), burst := fullWrite c.bytes } := by
      rw [State.labelRequest, window]
      rfl
    change execLabelPost us s₀ = _
    simp only [execLabelPost, ← arrived, may, none', presentLabel, head, held, released, request, if_true]
    rfl
  case record =>
    intro bs
    have run := layout_holdsRun r.fields
    rw [← r.bytes_eq] at run
    obtain ⟨kind, object, repeats, ff, ss, mm, hh, audio, detail⟩ := run
    simp only [Nat.reduceAdd] at kind object repeats ff ss mm hh audio detail
    replace detail : HoldsRun r.bytes 12 r.detail.fields := detail
    refine ⟨r.bytes_length, object, repeats, ⟨ff, ss, mm, hh⟩, audio, ?_⟩
    rcases d : r.detail with o | ⟨los, sync⟩ | ⟨o, a⟩ | ⟨drops, corrupt, flushes, n⟩ | sources | ⟨buses, n⟩ | st | slots |
      ⟨cameras, n⟩ | ⟨a, n⟩ | n <;> rw [d] at kind detail <;>
      simp only [HoldsRun, Detail.fields, Nat.reduceAdd, and_true] at detail
    all_goals exact ⟨kind, detail⟩
  case clip =>
    intro bs flags
    have run := layout_holdsRun c.fields
    rw [← c.bytes_eq] at run
    have small : c.flags < 128 := c.flags_eq ▸ flagsValue_lt c.flagList
    have bits (k : Nat) : c.flags.testBit k = (c.flagList[k]?).getD false := by rw [c.flags_eq, flagsValue_testBit]
    obtain ⟨id, camera, flag, ff, ss, mm, hh, inVideo, inAudio, rest⟩ := run
    have read : flags = c.flags := by
      refine Eq.trans (show flags = c.flags % 256 ^ 1 from flag) ?_
      omega
    clear_value flags
    subst read
    refine ⟨c.bytes_length, id, camera, small, bits 0, bits 1, bits 2, bits 3, bits 4, bits 5, bits 6, ⟨ff, ss, mm, hh⟩,
      inVideo, inAudio, ?_⟩
    simp only [Nat.reduceAdd, Nat.zero_add] at rest
    rcases closing : c.closing with _ | k <;> rcases pictures : c.pictures with _ | ⟨first, last⟩ <;>
      simp only [closing, pictures, HoldsRun, List.append_eq, List.nil_append, List.cons_append,
        Nat.reduceAdd, and_true] at rest
    · obtain ⟨out, recorded, dropped, peak, held, split, unused⟩ := rest
      exact ⟨nofun, fun _ => out, recorded, dropped, peak, nofun, fun _ => held, split, unused⟩
    · obtain ⟨out, recorded, dropped, peak, one, two, drops, split, unused⟩ := rest
      refine ⟨nofun, fun _ => out, recorded, dropped, peak, fun a b same => ?_, nofun, split, unused⟩
      cases same
      exact ⟨one, two, drops⟩
    · obtain ⟨ff, ss, mm, hh, video, audio, recorded, dropped, peak, held, split, unused⟩ := rest
      refine ⟨fun k' same => ?_, nofun, recorded, dropped, peak, nofun, fun _ => held, split, unused⟩
      cases same
      exact ⟨⟨ff, ss, mm, hh⟩, video, audio⟩
    · obtain ⟨ff, ss, mm, hh, video, audio, recorded, dropped, peak, one, two, drops, split, unused⟩ := rest
      refine ⟨fun k' same => ?_, nofun, recorded, dropped, peak, fun a b same => ?_, nofun, split, unused⟩
      · cases same
        exact ⟨⟨ff, ss, mm, hh⟩, video, audio⟩
      · cases same
        exact ⟨one, two, drops⟩

end

section
/-! SUPPORT. What the posting of closed clips leaves of the clip table, and the returns of the part's writes (R34, R99,
R121-R126, R210). -/

set_option Elab.async false

namespace Sys2Proof.Machine

variable {s t u : State}

/-! ## Records only go, or gain posting flags (R121, R122, R124) -/

/-- Records and list entries may go; a record left stays OPEN or CLOSED as it is, and keeps ring done once set. -/
structure RecordsGo (s t : State) : Prop where
  gone : ∀ j : Fin 32, s.label.clips[j] = none → t.label.clips[j] = none
  left : ∀ j ∈ t.label.order, j ∈ s.label.order
  held : ∀ (j : Fin 32) (c' : Clip), t.label.clips[j] = some c' → ∃ c, s.label.clips[j] = some c ∧
    c'.parityBad = c.parityBad ∧
    ∀ x, c.closing = some x → ∃ x', c'.closing = some x' ∧ (x.ringDone = true → x'.ringDone = true)

theorem RecordsGo.of_label (clips : t.label.clips = s.label.clips) (order : t.label.order = s.label.order) :
    RecordsGo s t where
  gone j none' := by rw [clips, none']
  left j mem := order ▸ mem
  held j c' held := ⟨c', clips ▸ held, rfl, fun x closed => ⟨x, closed, fun done => done⟩⟩

theorem RecordsGo.trans (h : RecordsGo s t) (k : RecordsGo t u) : RecordsGo s u where
  gone j none' := k.gone j (h.gone j none')
  left j mem := h.left j (k.left j mem)
  held j c'' held'' := by
    obtain ⟨c', held', bad', closing'⟩ := k.held j c'' held''
    obtain ⟨c, held, bad, closing⟩ := h.held j c' held'
    refine ⟨c, held, bad'.trans bad, fun x closed => ?_⟩
    obtain ⟨x', closed', done⟩ := closing x closed
    obtain ⟨x'', closed'', done'⟩ := closing' x' closed'
    exact ⟨x'', closed'', done' ∘ done⟩

theorem freeClip_recordsGo (i : Fin 32) (s : State) : RecordsGo s (freeClip i s) where
  gone j none' := by
    refine (getElem_set_fin s.label.clips i j none).trans ?_
    rw [none', ite_self]
  left j mem := (List.mem_filter.mp mem).1
  held j c' held := by
    refine ⟨c', ?_, rfl, fun x closed => ⟨x, closed, fun done => done⟩⟩
    have place := (getElem_set_fin s.label.clips i j none).symm.trans held
    split at place
    · cases place
    · exact place

theorem freeClip_gone (i : Fin 32) (s : State) :
    (freeClip i s).label.clips[i] = none ∧ i ∉ (freeClip i s).label.order := by
  refine ⟨(getElem_set_fin s.label.clips i i none).trans (if_pos rfl), fun mem => ?_⟩
  have other := (List.mem_filter.mp mem).2
  simp at other

theorem dropBadClip_recordsGo (i : Fin 32) (s : State) : RecordsGo s (dropBadClip i s) :=
  (freeClip_recordsGo i s).trans (.of_label (by rw [dropBadClip_label]) (by rw [dropBadClip_label]))

theorem dropBadClip_gone (i : Fin 32) (s : State) :
    (dropBadClip i s).label.clips[i] = none ∧ i ∉ (dropBadClip i s).label.order := by
  rw [dropBadClip_label]
  exact freeClip_gone i s

theorem markPosted_recordsGo (i : Fin 32) {f : Closing → Closing}
    (h : ∀ k, k.ringDone = true → (f k).ringDone = true) (s : State) : RecordsGo s (markPosted i f s) := by
  unfold markPosted
  split
  next c held =>
    dsimp only
    split
    · exact freeClip_recordsGo i s
    · refine ⟨fun j none' => ?_, fun j mem => mem, fun j c' held' => ?_⟩
      · refine (getElem_set_fin s.label.clips i j _).trans ?_
        rw [if_neg, none']
        rintro rfl
        rw [held] at none'
        cases none'
      · have place := (getElem_set_fin s.label.clips i j _).symm.trans held'
        split at place
        next same =>
          subst same
          cases place
          refine ⟨c, held, rfl, fun x closed => ⟨f x, ?_, h x⟩⟩
          rw [Clip.mapClosing, closed]
          rfl
        next => exact ⟨c', place, rfl, fun x closed => ⟨x, closed, fun done => done⟩⟩
  next => exact .of_label rfl rfl

theorem uplinkSettle_recordsGo (s : State) : RecordsGo s (uplinkSettle s) := by
  unfold uplinkSettle
  split
  · exact .of_label rfl rfl
  · exact settle_induction _ (fun _ => .of_label rfl rfl) (uplinkOnce_induction (fun _ => .of_label rfl rfl) .trans
      dropBadClip_recordsGo (fun i => markPosted_recordsGo i fun _ done => done) fun _ _ => .of_label rfl rfl) .trans ..

theorem ringOnce_recordsGo (s : State) : RecordsGo s (ringOnce s).1 := by
  unfold ringOnce
  split
  · exact .of_label rfl rfl
  · split
    · exact .of_label rfl rfl
    · split
      · exact dropBadClip_recordsGo ..
      · split
        · exact markPosted_recordsGo _ (fun _ _ => rfl) _
        · exact .of_label rfl rfl

theorem ringSettle_recordsGo (s : State) : RecordsGo s (ringSettle s) := by
  unfold ringSettle
  split
  · exact .of_label rfl rfl
  · split
    · exact .of_label rfl rfl
    · exact settle_induction _ (fun _ => .of_label rfl rfl) ringOnce_recordsGo .trans ..

theorem postSettle_recordsGo (s : State) : RecordsGo s (postSettle s) :=
  (ringSettle_recordsGo s).trans (uplinkSettle_recordsGo _)

theorem labelLanded_recordsGo (s : State) : RecordsGo s (labelLanded s) :=
  RecordsGo.trans (t := s.setLabel { s.label with inFlight := none }) (.of_label rfl rfl) (postSettle_recordsGo _)

/-! ## No parity error, no fault (R126) -/

theorem RecordsGo.clipsGood (h : RecordsGo s t) (good : s.ClipsGood) : t.ClipsGood := by
  intro j d held
  obtain ⟨c, old, bad, -⟩ := h.held j d held
  rw [bad]
  exact good j c old

/-- With no parity error in the clip table nothing is reported. -/
structure QuietIfGood (s t : State) : Prop where
  quiet : s.ClipsGood → t.ClipsGood ∧ t.report = s.report ∧ t.fault = s.fault

theorem QuietIfGood.of_same (clips : RecordsGo s t) (report : t.report = s.report) (fault : t.fault = s.fault) :
    QuietIfGood s t := ⟨fun good => ⟨clips.clipsGood good, report, fault⟩⟩

theorem QuietIfGood.refl (s : State) : QuietIfGood s s := ⟨fun good => ⟨good, rfl, rfl⟩⟩

theorem QuietIfGood.trans (h : QuietIfGood s t) (k : QuietIfGood t u) : QuietIfGood s u where
  quiet good := by
    obtain ⟨good', report, fault⟩ := h.quiet good
    obtain ⟨good'', report', fault'⟩ := k.quiet good'
    exact ⟨good'', report'.trans report, fault'.trans fault⟩

theorem markPosted_quiet (i : Fin 32) {f : Closing → Closing} (h : ∀ k, k.ringDone = true → (f k).ringDone = true)
    (s : State) : QuietIfGood s (markPosted i f s) := by
  refine .of_same (markPosted_recordsGo i h s) ?_ ?_
  all_goals
    unfold markPosted
    split
    · dsimp only
      split <;> rfl
    · rfl

theorem uplinkOnce_quiet (s : State) : QuietIfGood s (uplinkOnce s).1 := by
  refine ⟨fun good => ?_⟩
  unfold uplinkOnce
  split
  · exact ⟨good, rfl, rfl⟩
  · split
    · exact ⟨good, rfl, rfl⟩
    rename_i i _ _ c held
    rw [if_neg (by rw [good i c held]; nofun)]
    split
    · exact ⟨good, rfl, rfl⟩
    · split
      · split
        · exact (markPosted_quiet i (f := fun k => { k with uplinkDone := true }) (fun _ done => done)
            (s.setLabel { s.label with uplink := s.label.uplink ++ [c.bytes] })).quiet good
        · exact ⟨good, rfl, rfl⟩
      · exact (markPosted_quiet i (f := fun k => { k with uplinkDone := true }) (fun _ done => done) s).quiet good

theorem ringOnce_quiet (s : State) : QuietIfGood s (ringOnce s).1 := by
  refine ⟨fun good => ?_⟩
  unfold ringOnce
  split
  · exact ⟨good, rfl, rfl⟩
  · split
    · exact ⟨good, rfl, rfl⟩
    rename_i i _ _ c held
    rw [if_neg (by rw [good i c held]; nofun)]
    split
    · exact (markPosted_quiet i (f := fun k => { k with ringDone := true }) (fun _ _ => rfl) s).quiet good
    · exact ⟨good, rfl, rfl⟩

theorem postSettle_quiet (s : State) : QuietIfGood s (postSettle s) := by
  refine QuietIfGood.trans (t := ringSettle s) ?_ ?_
  · unfold ringSettle
    split
    · exact .refl _
    · split
      · exact .refl _
      · exact settle_induction _ QuietIfGood.refl ringOnce_quiet .trans ..
  · change QuietIfGood _ (uplinkSettle (ringSettle s))
    unfold uplinkSettle
    split
    · exact .refl _
    · exact settle_induction _ QuietIfGood.refl uplinkOnce_quiet .trans ..

theorem labelLanded_quiet (s : State) : QuietIfGood s (labelLanded s) :=
  QuietIfGood.trans (t := s.setLabel { s.label with inFlight := none }) ⟨fun good => ⟨good, rfl, rfl⟩⟩ (postSettle_quiet _)

/-! ## The interval ends that are settled (R210) -/

/-- An offer looks at the mode alone of the fault unit. -/
theorem offer_setFault {f : FaultUnit} (mode : f.mode = s.fault.mode) (object : Nat) (d : Detail) :
    offer object d (s.setFault f) = (offer object d s).setFault f := by
  have same : (s.setFault f).takesOffer object d = s.takesOffer object d := by
    simp only [State.takesOffer, State.isNormal, State.setFault, mode]
  unfold offer
  rw [same]
  split <;> rfl

theorem foldl_settleInterval {f : FaultUnit} (mode : f.mode = s.fault.mode) (gs : List IntervalWrites) :
    gs.foldl settleInterval (s.setFault f) =
      ((gs.filter fun g => g.opened = 0 ∧ g.begun = true).foldl (fun t g => offer 0 (.measure g.number) t) s).setFault f := by
  induction gs generalizing s with
  | nil => rfl
  | cons g gs ih =>
    rw [List.foldl_cons, settleInterval, List.filter_cons]
    by_cases done : g.opened = 0 ∧ g.begun = true
    · have kept : (offer 0 (.measure g.number) s).fault = s.fault := (offer_changes ..).fault
      rw [if_pos done, if_pos (decide_eq_true done), offer_setFault mode, ih (by rw [kept, mode])]
      rfl
    · rw [if_neg done, if_neg (by simpa using done), ih mode]

theorem blockDone_eq (serial : Nat) (s : State) :
    let opened := s.fault.writes.map fun g => if g.serial = serial then { g with opened := g.opened - 1 } else g
    let t := (opened.filter fun g => g.opened = 0 ∧ g.begun = true).foldl
      (fun t g => offer 0 (.measure g.number) t) s
    blockDone serial s = { t with fault := { t.fault with writes := opened.filter fun g => g.opened ≠ 0 } } := by
  intro opened t
  have kept (gs : List IntervalWrites) (s : State) :
      (gs.foldl (fun t g => offer 0 (.measure g.number) t) s).fault = s.fault := by
    induction gs generalizing s with
    | nil => rfl
    | cons g gs ih => exact (ih _).trans (offer_changes ..).fault
  have settled := foldl_settleInterval (s := s) (f := { s.fault with writes := opened }) rfl opened
  have counted : (s.fault.writes.map fun g =>
      if g.serial == serial then { g with opened := g.opened - 1 } else g) = opened := by
    simp only [opened, beq_iff_eq]
  have fault : t.fault = s.fault := kept ..
  have open' : (opened.filter fun g => g.opened != 0) = opened.filter fun g => g.opened ≠ 0 :=
    List.filter_congr fun g _ => by rw [bne, beq_eq_decide, decide_not]
  rw [blockDone, counted]
  change (let s' := opened.foldl settleInterval (s.setFault { s.fault with writes := opened })
    s'.setFault { s'.fault with writes := s'.fault.writes.filter fun g => g.opened != 0 }) = _
  rw [settled, fault, ← open']
  rfl

/-! ## The label write's return (R122, R125, R126) -/

/-- Record j is done with the ring: its flag is set, or it is dropped for its parity error. -/
def finishRing (j : Fin 32) (s : State) : State :=
  if (s.label.clips[j]).any Clip.parityBad then dropBadClip j s
  else markPosted j (fun k => { k with ringDone := true }) s

theorem ringDone_eq {j : Fin 32} (inFlight : s.label.inFlight = some (some j)) : ringDone s = finishRing j s := by
  rw [ringDone, inFlight]
  rfl

theorem ringOnce_eq {j : Fin 32} {c : Clip} (head : s.label.ringHead = some j) (held : s.label.clips[j] = some c)
    (released : c.released = true) (landed : s.label.inFlight = none) : ringOnce s = (finishRing j s, true) := by
  have any : (s.label.clips[j]).any Clip.parityBad = c.parityBad := by rw [held, Option.any_some]
  simp only [ringOnce, head, held, released, landed, finishRing, Option.any_some]
  split <;> rfl

theorem finishRing_recordsGo (j : Fin 32) (s : State) : RecordsGo s (finishRing j s) := by
  unfold finishRing
  split
  · exact dropBadClip_recordsGo ..
  · exact markPosted_recordsGo _ (fun _ _ => rfl) _

theorem finishRing_settled (j : Fin 32) (s : State) : LabelSettled s (finishRing j s) := by
  unfold finishRing
  split
  · exact dropBadClip_settled ..
  · exact markPosted_settled ..

theorem finishRing_done {j : Fin 32} {c : Clip} {x : Closing} (held : s.label.clips[j] = some c)
    (closed : c.closing = some x) :
    (x.uplinkDone = true ∨ c.parityBad = true →
      (finishRing j s).label.clips[j] = none ∧ j ∉ (finishRing j s).label.order) ∧
    (∀ c', (finishRing j s).label.clips[j] = some c' → ∃ x', c'.closing = some x' ∧ x'.ringDone = true) := by
  unfold finishRing
  rcases bad : c.parityBad with _ | _
  · have marked : c.mapClosing (fun k => { k with ringDone := true }) =
        { c with closing := some { x with ringDone := true } } := by
      rw [Clip.mapClosing, closed]
      rfl
    rw [held, if_neg (by simp [bad]), markPosted, held]
    dsimp only
    rw [marked]
    rcases uplink : x.uplinkDone with _ | _
    · rw [if_neg (by simp [Clip.posted, Clip.closedWith])]
      refine ⟨by simp, fun c' held' => ?_⟩
      cases ((getElem_set_fin s.label.clips j j _).trans (if_pos rfl)).symm.trans held'
      exact ⟨_, rfl, rfl⟩
    · rw [if_pos (by simp [Clip.posted, Clip.closedWith])]
      obtain ⟨gone, left⟩ := freeClip_gone j s
      exact ⟨fun _ => ⟨gone, left⟩, fun c' held' => by rw [gone] at held'; cases held'⟩
  · rw [held, if_pos (by simp [bad])]
    obtain ⟨gone, left⟩ := dropBadClip_gone j s
    exact ⟨fun _ => ⟨gone, left⟩, fun c' held' => by rw [gone] at held'; cases held'⟩

/-- A record gone from table and list stays gone, and one done with the ring stays done. -/
theorem RecordsGo.finished (h : RecordsGo s t) {j : Fin 32} {gone : Prop}
    (done : (gone → s.label.clips[j] = none ∧ j ∉ s.label.order) ∧
      (∀ c', s.label.clips[j] = some c' → ∃ x', c'.closing = some x' ∧ x'.ringDone = true)) :
    (gone → t.label.clips[j] = none ∧ j ∉ t.label.order) ∧
      (∀ c', t.label.clips[j] = some c' → ∃ x', c'.closing = some x' ∧ x'.ringDone = true) := by
  obtain ⟨away, flag⟩ := done
  refine ⟨fun g => ?_, fun c' held' => ?_⟩
  · obtain ⟨empty, left⟩ := away g
    exact ⟨h.gone j empty, fun mem => left (h.left j mem)⟩
  · obtain ⟨c, held, -, closing⟩ := h.held j c' held'
    obtain ⟨x, closed, ring⟩ := flag c held
    obtain ⟨x', closed', kept⟩ := closing x closed
    exact ⟨x', closed', kept ring⟩

/-- The fault of a record found with a parity error, and no other (R126). -/
theorem finishRing_faults {j : Fin 32} {c : Clip} (normal : s.isNormal = true) (held : s.label.clips[j] = some c) :
    let found := if c.parityBad then faultedState 7 (.location 2 (BitVec.ofNat 8 j.val)) s else s
    (finishRing j s).report = found.report ∧ (finishRing j s).fault = found.fault := by
  unfold finishRing
  rw [held]
  rcases bad : c.parityBad with _ | _
  · intro found
    rw [if_neg (by simp [bad]), markPosted]
    split
    · dsimp only
      split <;> exact ⟨rfl, rfl⟩
    · exact ⟨rfl, rfl⟩
  · intro found
    rw [if_pos (by simp [bad]), dropBadClip]
    dsimp only
    rw [raiseFault_of_normal _ _ (by exact normal)]
    exact ⟨rfl, rfl⟩

theorem finishRing_clipsGood {j : Fin 32} {c : Clip} (held : s.label.clips[j] = some c)
    (others : ∀ (m : Fin 32) (d : Clip), m ≠ j → s.label.clips[m] = some d → d.parityBad = false) :
    (finishRing j s).ClipsGood := by
  intro m d there
  obtain ⟨c', old, bad, -⟩ := (finishRing_recordsGo j s).held m d there
  by_cases own : m = j
  · subst own
    rw [held] at old
    cases old
    rcases parity : c.parityBad with _ | _
    · rw [bad, parity]
    · rw [finishRing, held, if_pos (by simp [parity]), (dropBadClip_gone m s).1] at there
      cases there
  · rw [bad]
    exact others m c' own old

theorem RingDoneKept.of_label {v : State} (h : RingDoneKept s t) (same : s.label = v.label) : RingDoneKept v t :=
  fun j c c' x x' held => h j c c' x x' (by rw [same, held])

theorem LabelSettled.changes (h : LabelSettled s t) : ChangesOnly [.report, .label, .fault] s t := by
  rw [h]
  constructor
  intro p other
  cases p <;> simp_all [Part.same]

/-- The counts of the ring after a label write that was OK, or was given up (R122). -/
def countedRing (ok : Bool) (s : State) : State :=
  if ok then s.setLabel { s.label with
    written := s.label.written + 1
    slot := if s.label.slot + 1 < s.labelRing then s.label.slot + 1 else 0 }
  else s

theorem countedRing_changes (ok : Bool) (s : State) : ChangesOnly [.label] s (countedRing ok s) := by
  cases ok
  · exact .refl
  · constructor
    intro p other
    cases p <;> simp_all [Part.same, countedRing, State.setLabel]

theorem countedRing_recordsGo (ok : Bool) (s : State) : RecordsGo s (countedRing ok s) := by
  cases ok <;> exact .of_label rfl rfl

theorem countedRing_eq (ok : Bool) (s : State) : countedRing ok s = { s with label := { s.label with
    written := if ok then s.label.written + 1 else s.label.written
    slot := if ok then (if s.label.slot + 1 < s.labelRing then s.label.slot + 1 else 0) else s.label.slot } } := by
  cases ok <;> rfl

/-- The label unit after the last return of a write that counts. -/
theorem labelReturned_of_last {i : Issued} {r : Response} {again : Bool} (purpose : i.purpose = .labelWrite again)
    (fresh : i.stale = false) (last : r.ok = true ∨ again = true ∨ s.label.inFlight = some none) :
    labelReturned i r s = labelLanded (countedRing r.ok (ringDone s)) := by
  rw [labelReturned, fresh, if_neg Bool.false_ne_true]
  rcases ok : r.ok with _ | _
  · rw [ok] at last
    rw [if_neg Bool.false_ne_true, if_neg]
    · rfl
    · rw [purpose]
      rintro ⟨first, there⟩
      rcases last with success | second | none'
      · cases success
      · rw [second] at first
        cases first
      · exact there none'
  · rfl

theorem labelReturned_of_first {i : Issued} {r : Response} {j : Fin 32} (purpose : i.purpose = .labelWrite false)
    (fresh : i.stale = false) (failed : r.ok = false) (inFlight : s.label.inFlight = some (some j)) :
    labelReturned i r s = makeRequest labelQueue { purpose := .labelWrite true, fixed := some i.request } s := by
  rw [labelReturned, fresh, if_neg Bool.false_ne_true, failed, if_neg Bool.false_ne_true, if_pos]
  rw [purpose, inFlight]
  simp

end Sys2Proof.Machine

open Sys2Proof Sys2Proof.Machine

/-- Settles O34: each requester's own reaction to its response, after the fault of an ERROR. -/
theorem writesReturn : Obligations.WritesReturn := by
  intro r k i s answers freed answered
  have parts : answered.report = { s.report with queue := answered.report.queue } ∧ answered.mixer = s.mixer ∧
      answered.label = s.label ∧ answered.fault = { s.fault with classes := answered.fault.classes } ∧
      answered.path = freed.path ∧ answered.timing = s.timing := by
    unfold answered
    split <;> exact ⟨rfl, rfl, rfl, rfl, rfl, rfl⟩
  obtain ⟨report, mixer, label, fault, path, -⟩ := parts
  have changed : ChangesOnly [.path, .report, .fault] s answered := by
    have accepted := acceptResponse_changes k i r s
    obtain ⟨_, _, _, normal, _⟩ := answers
    rw [acceptResponse_of_normal k i r normal] at accepted
    exact accepted
  refine ⟨fun again purpose => ?post, fun frame j purpose => ?bus, fun serial l again purpose => ?meas,
    fun again j c x purpose inFlight held closed => ?label, fun again purpose inFlight => ?gone⟩
  case post =>
    have run := internalReturn_of_answers (wanted := Purpose.isReportPost) (taken := postReturned) answers
      (by rw [purpose]; rfl)
    refine run.trans (congrArg _ ?_)
    change postReturned i r answered = _
    have post : answered.report.post = s.report.post := by rw [report]
    have written : answered.report.written = s.report.written := by rw [report]
    have slot : answered.report.slot = s.report.slot := by rw [report]
    have ring : answered.reportRing = s.reportRing := by
      rw [State.reportRing, State.ownedWindow, path]
      rfl
    rw [postReturned, postCancelled, post, ring, written, slot, purpose]
    clear_value answered
    cases again <;> rfl
  case bus =>
    intro completed queue
    have run := internalReturn_of_answers (wanted := Purpose.isBusWrite) (taken := busReturned) answers
      (by rw [purpose]; rfl)
    refine run.trans (congrArg _ ?_)
    change busReturned i r answered = _
    rw [busReturned, purpose]
    dsimp only
    rw [busWriteDone, mixer]
    simp only [beq_iff_eq]
    rfl
  case meas =>
    intro opened done
    have run := internalReturn_of_answers (wanted := Purpose.isMeasWrite) (taken := blockReturned) answers
      (by rw [purpose]; rfl)
    refine run.trans (congrArg _ ?_)
    change blockReturned i r answered = _
    have writes : answered.fault.writes = s.fault.writes := by rw [fault]
    rw [blockReturned, purpose]
    dsimp only
    rw [blockDone_eq, writes]
  case label =>
    have run : exec (.labelWriteReturn r) s = .next (labelReturned i r answered) :=
      internalReturn_of_answers (wanted := Purpose.isLabelWrite) (taken := labelReturned) answers (by rw [purpose]; rfl)
    have owned : answered.ownedWindow .label = s.ownedWindow .label := by
      rw [State.ownedWindow, path]
      rfl
    have ring : answered.labelRing = s.labelRing := by
      rw [State.labelRing, owned]
      rfl
    have normal : answered.isNormal = true := by
      obtain ⟨_, _, _, normal, _⟩ := answers
      rw [State.isNormal, fault]
      exact normal
    have running : answered.label.stopped = false := by
      obtain ⟨_, _, _, _, discards⟩ := answers
      rw [label]
      rw [purpose] at discards
      exact (Bool.or_eq_false_iff.mp discards).2
    clear_value answered
    have inFlight' : answered.label.inFlight = some (some j) := by rw [label, inFlight]
    have held' : answered.label.clips[j] = some c := by rw [label, held]
    refine ⟨fun failed first fresh => ?again, fun last fresh => ?last, fun stale => ?stale⟩
    case again =>
      subst first
      rw [run, labelReturned_of_first purpose fresh failed inFlight']
    case last =>
      rw [labelReturned_of_last purpose fresh (by tauto), ringDone_eq inFlight'] at run
      have settled := finishRing_settled j answered
      have done := finishRing_done held' closed
      have faults := finishRing_faults normal held'
      have good := finishRing_clipsGood held'
      generalize finishRing j answered = v at run settled done faults good
      have counts : v.labelRing = s.labelRing ∧ v.label.written = s.label.written ∧ v.label.slot = s.label.slot ∧
          v.label.consumed = s.label.consumed := by
        rw [← ring, settled, label]
        exact ⟨rfl, rfl, rfl, rfl⟩
      obtain ⟨ringSize, written, slot, consumed⟩ := counts
      have shape := countedRing_eq r.ok v
      have kept := countedRing_changes r.ok v
      have go := (countedRing_recordsGo r.ok v).trans (labelLanded_recordsGo _)
      generalize countedRing r.ok v = w at run shape kept go
      obtain ⟨away, flag⟩ := go.finished done
      have landed := labelLanded_settled w
      have labels : ChangesOnly [.report, .label, .fault] v (labelLanded w) := kept.comp landed.changes
      have changes : ChangesOnly [.report, .label, .fault] answered (labelLanded w) := settled.changes.comp labels
      refine ⟨_, run, changed.comp changes, labelLanded_inFlight w,
        fun uplink => away (.inl uplink), flag, fun bad => away (.inr bad), fun others => ?_, ?_, fun ok => ?_,
        fun failed => ?_⟩
      · obtain ⟨-, report', fault'⟩ := (labelLanded_quiet w).quiet (by
          rw [shape]
          exact good (label ▸ others))
        rw [report', fault', kept.report, kept.fault]
        exact faults
      · rw [landed, shape, consumed]
      · rw [landed, shape, ok, written, slot, ringSize]
        exact ⟨rfl, rfl⟩
      · rw [landed, shape, failed, written, slot]
        exact ⟨rfl, rfl⟩
    case stale =>
      have landed : labelReturned i r answered = labelLanded answered := if_pos stale
      have settled := labelLanded_settled answered
      rw [landed] at run
      refine ⟨_, run, changed.comp (labelLanded_changes answered), labelLanded_inFlight _, ?_, ?_, fun window => ?_,
        fun before after none' order done hold clear => ?_⟩
      · rw [settled, label]
      · rw [settled, label]
      · exact (labelLanded_ringDoneKept (s := answered) (by rw [owned, window])).of_label label
      · obtain ⟨u, landing⟩ : ∃ u : State, u = answered.setLabel { answered.label with inFlight := none } := ⟨_, rfl⟩
        have head : u.label.ringHead = some j :=
          Label.ringHead_of_first (by rw [landing]; exact label ▸ order) (by rw [landing]; exact label ▸ done)
            (by rw [landing]; exact held') closed clear
        have there : u.label.clips[j] = some c := by rw [landing]; exact held'
        have first := ringOnce_eq head there
          (by rw [Clip.released, Clip.closedWith, closed]; exact beq_iff_eq.mpr hold) (by rw [landing]; rfl)
        have decided : labelLanded answered = uplinkSettle (settle ringOnce 31 (finishRing j u)) := by
          have gone : (u.ownedWindow .label).isSome = false := by
            rw [landing]
            exact congrArg Option.isSome (owned.trans none')
          have stopped : u.label.stopped = false := by rw [landing]; exact running
          rw [labelLanded, ← landing, postSettle, ringSettle, stopped, gone, if_neg Bool.false_ne_true,
            if_neg Bool.false_ne_true, settle, first]
        have go : RecordsGo (finishRing j u) (labelLanded answered) := by
          rw [decided]
          exact (settle_induction _ (fun _ => .of_label rfl rfl) ringOnce_recordsGo .trans ..).trans
            (uplinkSettle_recordsGo _)
        obtain ⟨away, flag⟩ := go.finished (finishRing_done there closed)
        exact ⟨fun uplink => away (.inl uplink), flag⟩
  case gone =>
    have run : exec (.labelWriteReturn r) s = .next (labelReturned i r answered) :=
      internalReturn_of_answers (wanted := Purpose.isLabelWrite) (taken := labelReturned) answers (by rw [purpose]; rfl)
    have owned : answered.ownedWindow .label = s.ownedWindow .label := by
      rw [State.ownedWindow, path]
      rfl
    have ring : answered.labelRing = s.labelRing := by
      rw [State.labelRing, owned]
      rfl
    clear_value answered
    have inFlight' : answered.label.inFlight = some none := by rw [label, inFlight]
    have none' : ringDone answered = answered := by rw [ringDone, inFlight']
    obtain ⟨ok, counts, returned⟩ : ∃ ok, (ok = true ↔ r.ok = true ∧ i.stale = false) ∧
        labelReturned i r answered = labelLanded (countedRing ok answered) := by
      rcases stale : i.stale with _ | _
      · refine ⟨r.ok, by simp, ?_⟩
        rw [labelReturned_of_last purpose stale (.inr (.inr inFlight')), none']
      · exact ⟨false, by simp, if_pos stale⟩
    rw [returned] at run
    have landed := labelLanded_settled (countedRing ok answered)
    have shape := countedRing_eq ok answered
    have kept := countedRing_changes ok answered
    have labels : ChangesOnly [.report, .label, .fault] answered (labelLanded (countedRing ok answered)) :=
      kept.comp landed.changes
    refine ⟨_, run, changed.comp labels, ?_, labelLanded_inFlight _, ?_, fun good fresh => ?_,
      fun bad => ?_, fun window => ?_⟩
    · rw [landed.changes.path, kept.path]
    · rw [landed, shape, label]
    · obtain rfl := counts.mpr ⟨good, fresh⟩
      rw [landed, shape, label, ring]
      exact ⟨rfl, rfl⟩
    · obtain rfl : ok = false := by
        cases ok
        · rfl
        · obtain ⟨success, fresh⟩ := counts.mp rfl
          simp [success, fresh] at bad
      rw [landed, shape, label]
      exact ⟨rfl, rfl⟩
    · refine (RecordsKeepRing.trans (t := countedRing ok answered) (.of_clips ?_)
        (.trans (t := (countedRing ok answered).setLabel { (countedRing ok answered).label with inFlight := none })
          (.of_clips rfl) (postSettle_recordsKeepRing ?_))).kept
      · rw [shape, label]
      · rw [shape]
        exact (congrArg Option.isSome owned).trans window

end

section
/-! SUPPORT. Events beside parity faults, and the function states of a line (R30, R31, R126, R153-R156). -/

set_option Elab.async false

namespace Sys2Proof.Machine

variable {s t u : State}

/-! ## The records of other pairs (R30, R31) -/

theorem mem_takeEvent_other {e q : Record} {queue : List Record} (other : q.pair ≠ e.pair) :
    q ∈ takeEvent e queue ↔ q ∈ queue := by
  unfold takeEvent
  split
  · refine ⟨fun mem => ?_, fun mem => List.mem_map.mpr ⟨q, mem, if_neg fun own => other (ofPair_iff.mp own)⟩⟩
    obtain ⟨y, there, rfl⟩ := List.mem_map.mp mem
    split at other
    next own =>
      obtain ⟨kind, object⟩ := coalesce_kind own
      refine absurd ?_ other
      have pair : (y.coalesce e.detail).pair = y.pair := Prod.ext kind object
      rw [pair]
      exact ofPair_iff.mp own
    next own =>
      rw [if_neg own]
      exact there
  · rw [(enterQueue_perm e queue).mem_iff, List.mem_cons]
    exact or_iff_right fun same => other (congrArg Record.pair same)

/-- The records that are not FAULT records are the same in two states. -/
structure SameOthers (s t : State) : Prop where
  same : ∀ q : Record, q.detail.kind ≠ 10 → (q ∈ t.report.queue ↔ q ∈ s.report.queue)

theorem SameOthers.of_report (h : t.report = s.report) : SameOthers s t := ⟨fun q _ => by rw [h]⟩

theorem SameOthers.trans (h : SameOthers s t) (k : SameOthers t u) : SameOthers s u :=
  ⟨fun q other => (k.same q other).trans (h.same q other)⟩

theorem raiseFault_sameOthers (c : FaultClass) (a : FailAddress) (s : State) : SameOthers s (raiseFault c a s) := by
  rcases normal : s.isNormal with _ | _
  · rw [raiseFault_of_passOnly c a normal]
    exact .of_report rfl
  · rw [raiseFault_of_normal c a normal]
    exact ⟨fun q other => mem_takeEvent_other fun same => other (congrArg Prod.fst same)⟩

theorem dropBadClip_sameOthers (i : Fin 32) (s : State) : SameOthers s (dropBadClip i s) := by
  unfold dropBadClip
  dsimp only
  refine SameOthers.trans ?_ (raiseFault_sameOthers ..)
  exact .of_report rfl

theorem markPosted_sameOthers (i : Fin 32) (f : Closing → Closing) (s : State) : SameOthers s (markPosted i f s) := by
  unfold markPosted
  split
  · dsimp only
    split <;> exact .of_report rfl
  · exact .of_report rfl

theorem ringOnce_sameOthers (s : State) : SameOthers s (ringOnce s).1 := by
  unfold ringOnce
  split
  · exact .of_report rfl
  · split
    · exact .of_report rfl
    · split
      · exact dropBadClip_sameOthers ..
      · split
        · exact markPosted_sameOthers ..
        · exact .of_report rfl

theorem postSettle_sameOthers (s : State) : SameOthers s (postSettle s) := by
  refine SameOthers.trans (t := ringSettle s) ?_ ?_
  · unfold ringSettle
    split
    · exact .of_report rfl
    · split
      · exact .of_report rfl
      · exact settle_induction _ (fun _ => .of_report rfl) ringOnce_sameOthers .trans ..
  · change SameOthers _ (uplinkSettle (ringSettle s))
    unfold uplinkSettle
    split
    · exact .of_report rfl
    · exact settle_induction _ (fun _ => .of_report rfl) (uplinkOnce_induction (fun _ => .of_report rfl) .trans
        dropBadClip_sameOthers (fun i => markPosted_sameOthers i _) fun _ _ => .of_report rfl) .trans ..

/-! ## LINE_FUNCTION events (R153-R155) -/

/-- In NORMAL mode the event is in the queue, with its outcome (R30, R31). -/
theorem offer_lineFunction (l : LineId) (o : LineOutcome) (normal : s.isNormal = true) :
    ∃ q ∈ (offer l.val (.lineFunction o) s).report.queue, q.object = l.val ∧ q.detail = .lineFunction o := by
  rw [offer_of_normal _ _ normal]
  change ∃ q ∈ takeEvent _ _, _
  unfold takeEvent
  split
  next pending =>
    obtain ⟨q, mem, own⟩ := List.any_eq_true.mp pending
    refine ⟨q.coalesce (.lineFunction o), List.mem_map.mpr ⟨q, mem, if_pos own⟩, (coalesce_kind own).2.trans ?_, ?_⟩
    · exact congrArg Prod.snd (ofPair_iff.mp own)
    · have latest (old : Detail) : old.merge (.lineFunction o) = .lineFunction o := by cases old <;> rfl
      exact latest _
  next => exact ⟨_, (enterQueue_perm _ _).mem_iff.mpr List.mem_cons_self, rfl, rfl⟩

theorem offer_setLine (object : Nat) (d : Detail) (l : LineId) (x : Line) (s : State) :
    offer object d (s.setLine l x) = (offer object d s).setLine l x := by
  unfold offer
  have same : (s.setLine l x).takesOffer object d = s.takesOffer object d := rfl
  rw [same]
  split <;> rfl

/-- What a change of a line's function state leaves: the line as settled, the event, and no other record but FAULT. -/
structure FunctionTold (l : LineId) (o : LineOutcome) (y : Line) (s t : State) : Prop where
  line : t.line l = y.settleOutput
  event : s.isNormal = true → ∃ q ∈ t.report.queue, q.object = l.val ∧ q.detail = .lineFunction o
  report : s.ClipsGood → t.report = (offer l.val (.lineFunction o) s).report
  post : t.report.post = s.report.post
  sameOthers : SameOthers (offer l.val (.lineFunction o) s) t
  others : OtherLinesSame l s t
  changes : ChangesOnly [.report, .label, .lines, .fault] s t

theorem functionChanged_told (l : LineId) (o : LineOutcome) (y : Line) (s : State) :
    FunctionTold l o y s (functionChanged l o (s.setLine l y)) := by
  have settled := postSettle_settled (offer l.val (.lineFunction o) (s.setLine l y))
  have others := postSettle_sameOthers (offer l.val (.lineFunction o) (s.setLine l y))
  have quiet := postSettle_quiet (offer l.val (.lineFunction o) (s.setLine l y))
  have offered := offer_setLine l.val (.lineFunction o) l y s
  have report : (offer l.val (.lineFunction o) (s.setLine l y)).report = (offer l.val (.lineFunction o) s).report := by
    rw [offered]
    rfl
  have label : (offer l.val (.lineFunction o) (s.setLine l y)).label = s.label := by
    rw [offered]
    exact (offer_changes ..).label
  have told : SameOthers (offer l.val (.lineFunction o) s) (functionChanged l o (s.setLine l y)) :=
    SameOthers.trans (.of_report report) (.trans others (.of_report rfl))
  refine ⟨?_, fun normal => ?_, fun good => ?_, ?_, told, (functionChanged_others ..).after (setLine_others ..),
    (State.setLine_changes ..).comp (functionChanged_changes ..)⟩
  · have line : (postSettle (offer l.val (.lineFunction o) (s.setLine l y))).line l = y := by
      have lines := (postSettle_changes (offer l.val (.lineFunction o) (s.setLine l y))).lines
      refine (congrArg (·[l]) lines).trans ?_
      refine (offer_line ..).trans (State.setLine_line_same ..)
    rw [functionChanged, settleLine, line, State.setLine_line_same]
  · obtain ⟨q, mem, object, detail⟩ := offer_lineFunction (s := s) l o normal
    exact ⟨q, (told.same q (by rw [detail]; exact Nat.ne_of_beq_eq_false rfl)).mpr mem, object, detail⟩
  · obtain ⟨-, kept, -⟩ := quiet.quiet (fun j d held => good j d (by rwa [label] at held))
    exact kept.trans report
  · have kept : (functionChanged l o (s.setLine l y)).report.post =
        (offer l.val (.lineFunction o) (s.setLine l y)).report.post := congrArg (·.report.post) settled
    rw [kept, report, offer_report]
    split <;> rfl

/-! ## The commands (R153-R155) -/

theorem Line.stagedDiffers_iff (x : Line) : x.stagedDiffers = true ↔
    ∃ g, x.staged = some g ∧ (g.rate ≠ x.applied.rate ∨ g.code ≠ x.applied.code) := by
  unfold Line.stagedDiffers
  rcases x.staged with _ | g <;> simp

theorem Line.settleOutput_output (x : Line) : x.settleOutput.output = x.output := rfl

/-- The output of a line that has not stopped (R156). -/
theorem Line.output_of_running {x : Line} (h : x.stopped = false) : x.output =
    if x.applied.rate = .off then .noSignal
    else if x.tx.isSome then .frame
    else if x.applied.loopback = .remote then .retransmission
    else match x.function with
      | .idle => .noSignal
      | .active => if x.startPending && x.holdBefore then .hold else .noSignal
      | .halting => .noSignal
      | .halted => .hold := by
  rw [Line.output, h]
  rfl

/-- A line halted or cleared sends no frame. -/
theorem Line.output_of_no_frame {x : Line} (h : x.stopped = false) (tx : x.tx = none) :
    (x.function = .halted → x.output = if x.applied.rate = .off then .noSignal
      else if x.applied.loopback = .remote then .retransmission else .hold) ∧
    (x.function = .idle → x.output = if x.applied.rate ≠ .off ∧ x.applied.loopback = .remote then .retransmission
      else .noSignal) := by
  rw [Line.output_of_running h, tx]
  refine ⟨fun function => by rw [function]; rfl, fun function => ?_⟩
  rw [function]
  by_cases off : x.applied.rate = .off <;> by_cases remote : x.applied.loopback = .remote <;> simp [off, remote]

/-- Started from IDLE or HALTED a line keeps its output until its first frame (R153, R156). -/
theorem Line.output_of_started {x : Line} (h : x.stopped = false) (before : x.function = .idle ∨ x.function = .halted) :
    ({ x with function := .active, startPending := true, holdBefore := x.function == .halted } : Line).output =
      x.output := by
  rw [Line.output_of_running h, Line.output_of_running (by exact h)]
  rcases before with before | before <;> rw [before] <;> rfl

/-- The event's own pair is pending after it in NORMAL mode, and in PASS-ONLY mode only if it was before (R32, R37). -/
theorem FunctionTold.pending {l : LineId} {o : LineOutcome} {y : Line} (h : FunctionTold l o y s t)
    (before : s.pairPending l.val (.lineFunction .started) = false) :
    t.pairPending l.val (.lineFunction .started) = s.isNormal := by
  obtain ⟨queue, post⟩ := Bool.or_eq_false_iff.mp before
  have own (q : Record) : q.ofPair l.val (.lineFunction .started) = q.ofPair l.val (.lineFunction o) := rfl
  have posted : t.pairPending l.val (.lineFunction .started) =
      t.report.queue.any (Record.ofPair l.val (.lineFunction .started)) := by
    rw [State.pairPending, h.post]
    exact (congrArg (_ || ·) post).trans (Bool.or_false _)
  rw [posted]
  rcases normal : s.isNormal with _ | _
  · have same := h.sameOthers
    rw [offer_of_no_record l.val (.lineFunction o) normal (by exact queue)] at same
    refine Bool.eq_false_iff.mpr fun pending => Bool.eq_false_iff.mp queue ?_
    obtain ⟨q, mem, pair⟩ := List.any_eq_true.mp pending
    have kind : q.detail.kind = 1 := congrArg Prod.fst (ofPair_iff.mp pair)
    exact List.any_eq_true.mpr ⟨q, (same.same q (by rw [kind]; decide)).mp mem, pair⟩
  · obtain ⟨q, mem, object, detail⟩ := h.event normal
    refine List.any_eq_true.mpr ⟨q, mem, ofPair_iff.mpr ?_⟩
    rw [Record.pair, object, detail]
    rfl

end Sys2Proof.Machine

open Sys2Proof Sys2Proof.Machine

/-- Settles O30: the refusals by their tests in order, and each acceptance as a change of function state told to the
label unit. -/
theorem lineFunctionCommandsDecide : Obligations.LineFunctionCommandsDecide := by
  intro l s running x pending differs
  have staged : x.stagedDiffers = true ↔ differs := x.stagedDiffers_iff
  refine ⟨fun handed => ?start, fun handed => ?halt, fun handed => ?clear⟩
  case start =>
    have run : exec .lineStart s = execLineStart s := rfl
    simp only [execLineStart, handed, running, Bool.false_eq_true, if_false] at run
    refine ⟨fun off => run.trans (if_pos off), fun on busy => run.trans ((if_neg on).trans (if_pos ?_)),
      fun on before same => ?_⟩
    · rw [staged]
      exact busy
    · have free : ¬ (x.function = .active ∨ x.function = .halting ∨ x.stagedDiffers = true) := by
        rw [staged]
        rcases before with before | before <;> simp [before, same]
      replace run := run.trans ((if_neg on).trans (if_neg free))
      refine ⟨fun waits => run.trans (if_pos waits), fun clear => ?_⟩
      have told := functionChanged_told l .started
        { x with function := .active, startPending := true, holdBefore := x.function == .halted } s
      refine ⟨_, run.trans (if_neg (Bool.eq_false_iff.mp clear)), ⟨told.event, told.report⟩, ?_⟩
      rw [startLine, told.line]
      exact ⟨rfl, rfl, rfl, Line.output_of_started running before, rfl, rfl, rfl, rfl, told.others, told.pending clear,
        told.changes⟩
  case halt =>
    have run : exec .lineHalt s = execLineHalt s := rfl
    simp only [execLineHalt, handed, running, Bool.false_eq_true, if_false] at run
    refine ⟨fun idle => run.trans (if_pos idle), fun active waits => ?_, fun active clear sends => ?_,
      fun active clear rests => ?_⟩
    · exact run.trans ((if_neg (not_not.mpr active)).trans (if_pos waits))
    · refine run.trans ((if_neg (not_not.mpr active)).trans ((if_neg (Bool.eq_false_iff.mp clear)).trans ?_))
      rw [haltLine, if_pos (Option.isSome_iff_ne_none.mpr sends)]
    · have told := functionChanged_told l .halted
        { x with function := .halted, startPending := false, audioDue := false, tx := none } s
      have halted : haltLine l s = enterHalted l s := if_neg (by rw [rests]; nofun)
      obtain ⟨output, -⟩ := Line.output_of_no_frame
        (x := { x with function := .halted, startPending := false, audioDue := false, tx := none }) running rfl
      replace run := run.trans ((if_neg (not_not.mpr active)).trans (if_neg (Bool.eq_false_iff.mp clear)))
      rw [halted] at run
      refine ⟨_, run, ⟨told.event, told.report⟩, ?_⟩
      rw [enterHalted, told.line]
      exact ⟨rfl, rfl, rfl, output rfl, rfl, rfl, rfl, told.others, told.changes⟩
  case clear =>
    have run : exec .lineClear s = execLineClear s := rfl
    simp only [execLineClear, handed, running, Bool.false_eq_true, if_false] at run
    have told := functionChanged_told l .cleared x.clear s
    obtain ⟨-, output⟩ := Line.output_of_no_frame (x := x.clear) running rfl
    have coder : x.clear.settleOutput.coder = Coder.reset := by
      change (if _ then { Coder.reset with pending := 0, out := [] } else Coder.reset) = Coder.reset
      exact ite_self _
    have jobs : ∀ j ∈ x.clear.jobs, j.discarded = true := by
      intro j mem
      obtain ⟨i, -, rfl⟩ := List.mem_map.mp mem
      rfl
    refine ⟨_, run, ⟨told.event, told.report⟩, ?_⟩
    rw [told.line]
    exact ⟨rfl, rfl, rfl, output rfl, rfl, coder, rfl, rfl, rfl, rfl, rfl, rfl, rfl, rfl, rfl, jobs, rfl, rfl, rfl,
      told.changes.governor, told.others, told.changes⟩

end

section
/-! SUPPORT. The settings groups: codes, items and route records (R28, R57, R75, R103, R143, R151, R152). -/

set_option Elab.async false

namespace Sys2Proof.Machine

variable {s : State}

/-! ## Items (R57, R103, R143, R151) -/

theorem firstFailure_eq (items : List (Nat × Bool)) :
    firstFailure items = (items.find? fun y => y.2).map (·.1) := by
  induction items with
  | nil => rfl
  | cons y rest ih =>
    obtain ⟨word, bad⟩ := y
    rw [firstFailure, List.find?_cons]
    cases bad
    · exact ih
    · rfl

theorem rateCode_some {c : Nat} (h : c ≤ 5) : ∃ x, VideoRate.ofCode c = some x := by
  interval_cases c <;> exact ⟨_, rfl⟩

theorem rateCode_none {c : Nat} (h : 5 < c) : VideoRate.ofCode c = none := by
  match c, h with
  | c + 6, _ => rfl

theorem markFunctionCode {c : Nat} (h : c ≤ 5) (x : MarkFunction) :
    MarkFunction.ofCode c = some ((MarkFunction.ofCode c).getD x) := by
  interval_cases c <;> rfl

theorem edgeCode {c : Nat} (h : c ≤ 3) (x : EdgeSelection) :
    EdgeSelection.ofCode c = some ((EdgeSelection.ofCode c).getD x) := by
  interval_cases c <;> rfl

theorem rateClassCode {c : Nat} (h : c ≤ 3) (x : RateClass) :
    RateClass.ofCode c = some ((RateClass.ofCode c).getD x) := by
  interval_cases c <;> rfl

theorem zeroRunCode {c : Nat} (h : c ≤ 2) (x : ZeroRun) : ZeroRun.ofCode c = some ((ZeroRun.ofCode c).getD x) := by
  interval_cases c <;> rfl

theorem loopbackCode {c : Nat} (h : c ≤ 2) (x : Loopback) : Loopback.ofCode c = some ((Loopback.ofCode c).getD x) := by
  interval_cases c <;> rfl

/-- A number below n, or 255 for none. -/
theorem toFin_map {n c : Nat} (h : c < n ∨ c = 255) (small : n ≤ 255) :
    (toFin n c).map Fin.val = if c = 255 then none else some c := by
  rcases h with less | rfl
  · rw [toFin_of_lt less, if_neg (by omega)]
    rfl
  · rw [toFin_of_le small, if_pos rfl]
    rfl

/-! ## What other objects hold (R143, R151) -/

/-- A number names an entry of a table only below its size. -/
theorem any_named {n : Nat} (o : Option (Fin n)) (c : Nat) : (o.any fun x => x.val == c) = (match toFin n c with
    | some k => o == some k
    | none => false) := by
  rcases Nat.lt_or_ge c n with less | more
  · rw [toFin_of_lt less]
    rcases o with _ | x
    · rfl
    · rw [Option.any_some, Bool.eq_iff_iff, beq_iff_eq, beq_iff_eq, Option.some.injEq, Fin.ext_iff]
  · rw [toFin_of_le more]
    rcases o with _ | x
    · rfl
    · rw [Option.any_some]
      exact beq_eq_false_iff_ne.mpr (by have := x.isLt; omega)

theorem cameraTaken_eq (s : State) (m : Fin 4) (camera : Nat) :
    (match toFin 8 camera with
      | some c => s.cameraTaken m c
      | none => false) =
    (List.finRange 4).any fun o => o != m &&
      ((s.stream o).applied.any (fun y => y.camera.any fun c => c.val == camera) ||
        (s.stream o).staged.any fun y => y.any fun y => y.camera.any fun c => c.val == camera) := by
  have one (x : Stream) : (x.applied.any (fun y => y.camera.any fun c => c.val == camera) ||
      x.staged.any fun y => y.any fun y => y.camera.any fun c => c.val == camera) = (match toFin 8 camera with
      | some c => x.namesCamera c
      | none => false) := by
    simp only [any_named]
    rcases toFin 8 camera with _ | c
    · rcases x.applied with _ | y <;> rcases x.staged with _ | _ | z <;> rfl
    · unfold Stream.namesCamera Stream.camera
      rcases x.applied with _ | y <;> rcases x.staged with _ | _ | z <;> rfl
  simp only [one]
  rcases toFin 8 camera with _ | c
  · simp
  · rfl

theorem otherLine_stream_eq (s : State) (l : LineId) (stream : Nat) :
    (match toFin 4 stream with
      | some n => s.otherLine l fun g => g.liveStream == some n
      | none => false) =
    (List.finRange 3).any fun m => m != l &&
      (((s.line m).applied.liveStream.any fun h => h.val == stream) ||
        (s.line m).staged.any fun y => y.liveStream.any fun h => h.val == stream) := by
  simp only [any_named]
  rcases toFin 4 stream with _ | n
  · simp
  · refine congrArg (List.any _) (funext fun m => congrArg (_ && ·) (congrArg (_ || ·) ?_))
    rcases (s.line m).staged with _ | y <;> rfl

theorem otherLine_eq (s : State) (l : LineId) (test : LineSettings → Bool) : s.otherLine l test =
    (List.finRange 3).any fun m => m != l && (test (s.line m).applied || (s.line m).staged.any test) := by
  refine congrArg (List.any _) (funext fun m => congrArg (_ && ·) (congrArg (_ || ·) ?_))
  rcases (s.line m).staged with _ | y <;> rfl

/-! ## The LINE group (R151, R152) -/

/-- The settings that a LINE group without a failing item holds. -/
def lineSettings (bs : List Byte) : LineSettings :=
  { rate := (RateClass.ofCode (byteAt bs 0)).getD .off
    code := (ZeroRun.ofCode (byteAt bs 1)).getD .off
    loopback := (Loopback.ofCode (byteAt bs 2)).getD .none
    buses := (List.range (byteAt bs 3)).filterMap fun k => toFin 16 (byteAt bs (4 + k))
    liveStream := toFin 4 (byteAt bs 7)
    carriesLabels := byteAt bs 8 == 1
    returnEnabled := byteAt bs 9 == 1 }

theorem filterMap_toFin {n : Nat} {f : Nat → Nat} {ks : List Nat} (h : ∀ k ∈ ks, f k < n) :
    (ks.filterMap fun k => toFin n (f k)).map Fin.val = ks.map f := by
  induction ks with
  | nil => rfl
  | cons k ks ih =>
    rw [List.filterMap_cons, toFin_of_lt (h k List.mem_cons_self)]
    exact congrArg (f k :: ·) (ih fun j mem => h j (List.mem_cons_of_mem _ mem))

theorem Line.refuses_iff (x : Line) (g : LineSettings) : x.refuses g = true ↔
    (x.function = .active ∨ x.function = .halting) ∧ (g.rate ≠ x.applied.rate ∨ g.code ≠ x.applied.code) := by
  simp [Line.refuses]

/-! ## The ROUTES group (R75) -/

/-- The fields of route record j of a ROUTES group. -/
def routeEnabled (bs : List Byte) (j : Fin 256) : Bool := byteAt bs (8 * j.val + 4) % 2 == 1

def routeBus (bs : List Byte) (j : Fin 256) : Nat := byteAt bs (8 * j.val + 2)

def routeSource (bs : List Byte) (j : Fin 256) : Nat := byteAt bs (8 * j.val + 3)

/-- The enabled records of a bus among those taken so far. -/
def routesOf (bs : List Byte) (front : List (Fin 256)) (j : Fin 256) : List (Fin 256) :=
  front.filter fun h => routeEnabled bs h && routeBus bs h == routeBus bs j

/-- Why route record j fails behind others, 0 when it does not (R75). -/
def routeReason (bs : List Byte) (front : List (Fin 256)) (j : Fin 256) : Nat :=
  if 15 < routeBus bs j then 1 else if 63 < routeSource bs j then 2
  else if (routesOf bs front j).any fun h => routeSource bs h == routeSource bs j then 3
  else if 24 ≤ (routesOf bs front j).length then 4 else 0

/-- The route that record j makes. -/
def routeOf (bs : List Byte) (j : Fin 256) : RouteRecord :=
  { index := j, bus := Fin.ofNat 16 (routeBus bs j), source := Fin.ofNat 64 (routeSource bs j),
    invert := byteAt bs (8 * j.val + 4) / 2 % 2 == 1 }

theorem ofNat_toFin {n c : Nat} [NeZero n] (h : c < n) : toFin n c = some (Fin.ofNat n c) := by
  rw [toFin_of_lt h]
  exact congrArg some (Fin.ext (Nat.mod_eq_of_lt h).symm)

/-- The records of a bus among the routes taken are those of the enabled records before. -/
theorem routesOf_taken {bs : List Byte} {front : List (Fin 256)} {j : Fin 256} (bus : routeBus bs j < 16)
    (sound : ∀ h ∈ front, routeEnabled bs h = true → routeBus bs h < 16) :
    (((front.filter (routeEnabled bs)).map (routeOf bs)).filter fun t => t.bus == Fin.ofNat 16 (routeBus bs j)) =
      (routesOf bs front j).map (routeOf bs) := by
  rw [List.filter_map, List.filter_filter, routesOf]
  refine congrArg (List.map _) (List.filter_congr fun h mem => ?_)
  rcases enabled : routeEnabled bs h with _ | _
  · exact Bool.and_false _
  · rw [Bool.and_true, Bool.true_and, Function.comp_apply, routeOf, Bool.eq_iff_iff, beq_iff_eq, beq_iff_eq, Fin.ext_iff]
    change routeBus bs h % 16 = routeBus bs j % 16 ↔ _
    rw [Nat.mod_eq_of_lt bus, Nat.mod_eq_of_lt (sound h mem enabled)]

/-- Route records are taken in index order: the first that fails is named, or all enabled ones are routes (R75). -/
theorem decodeRoutes_eq {bs : List Byte} {front rest : List (Fin 256)}
    (sound : ∀ h ∈ front, routeEnabled bs h = true → routeBus bs h < 16 ∧ routeSource bs h < 64)
    {reason : Fin 256 → Nat} (judged : ∀ before j after, rest = before ++ j :: after →
      reason j = routeReason bs (front ++ before) j) :
    decodeRoutes bs rest ((front.filter (routeEnabled bs)).map (routeOf bs)) =
      match rest.find? fun j => routeEnabled bs j && reason j != 0 with
      | some j => .error (256 * reason j + j.val)
      | none => .ok (((front ++ rest).filter (routeEnabled bs)).map (routeOf bs)) := by
  induction rest generalizing front with
  | nil => rw [List.append_nil]; rfl
  | cons j rest ih =>
    have own : reason j = routeReason bs front j := by
      rw [judged [] j rest rfl, List.append_nil]
    have later : ∀ before h after, rest = before ++ h :: after → reason h = routeReason bs (front ++ [j] ++ before) h := by
      intro before h after cut
      rw [judged (j :: before) h after (by rw [cut]; rfl), List.append_assoc]
      rfl
    have flags : byteAt (slice bs (8 * j.val) 8) 4 = byteAt bs (8 * j.val + 4) := field_slice bs _ _ (by decide)
    have bus : byteAt (slice bs (8 * j.val) 8) 2 = routeBus bs j := field_slice bs _ _ (by decide)
    have source : byteAt (slice bs (8 * j.val) 8) 3 = routeSource bs j := field_slice bs _ _ (by decide)
    have stops (reason' : Nat) (found : routeReason bs front j = reason') (bad : reason' ≠ 0)
        (enabled : routeEnabled bs j = true) :
        ((j :: rest).find? fun j => routeEnabled bs j && reason j != 0) = some j ∧ reason j = reason' := by
      refine ⟨List.find?_cons_of_pos ?_, own.trans found⟩
      rw [enabled, own, found, Bool.true_and]
      exact bne_iff_ne.mpr bad
    have goes (routes : List RouteRecord)
        (taken : ((front ++ [j]).filter (routeEnabled bs)).map (routeOf bs) = routes)
        (sound' : ∀ h ∈ front ++ [j], routeEnabled bs h = true → routeBus bs h < 16 ∧ routeSource bs h < 64)
        (skipped : (routeEnabled bs j && reason j != 0) = false) :
        decodeRoutes bs rest routes =
          match (j :: rest).find? fun j => routeEnabled bs j && reason j != 0 with
          | some j => .error (256 * reason j + j.val)
          | none => .ok (((front ++ j :: rest).filter (routeEnabled bs)).map (routeOf bs)) := by
      rw [← taken, ih sound' later, List.find?_cons, skipped, List.append_assoc]
      rfl
    rw [decodeRoutes, flags, bus, source]
    rcases enabled : routeEnabled bs j with _ | _
    · have even : byteAt bs (8 * j.val + 4) % 2 = 0 := by
        have odd : byteAt bs (8 * j.val + 4) % 2 ≠ 1 := beq_eq_false_iff_ne.mp enabled
        omega
      rw [if_pos even]
      refine goes _ ?_ (fun h mem on => ?_) (by rw [enabled]; rfl)
      · rw [List.filter_append, List.filter_cons_of_neg (by rw [enabled]; nofun), List.filter_nil, List.append_nil]
      · rcases List.mem_append.mp mem with mem | mem
        · exact sound h mem on
        · rw [List.mem_singleton.mp mem, enabled] at on
          cases on
    · have odd : ¬ byteAt bs (8 * j.val + 4) % 2 = 0 := by
        have odd : byteAt bs (8 * j.val + 4) % 2 = 1 := beq_iff_eq.mp enabled
        omega
      rw [if_neg odd]
      rcases Nat.lt_or_ge (routeBus bs j) 16 with lowBus | highBus
      · rcases Nat.lt_or_ge (routeSource bs j) 64 with lowSource | highSource
        · have ofBus := routesOf_taken lowBus fun h mem on => (sound h mem on).1
          have again : (((front.filter (routeEnabled bs)).map (routeOf bs)).any fun t =>
              t.bus == Fin.ofNat 16 (routeBus bs j) && t.source == Fin.ofNat 64 (routeSource bs j)) =
              (routesOf bs front j).any fun h => routeSource bs h == routeSource bs j := by
            rw [← List.any_filter, ofBus, List.any_map, Bool.eq_iff_iff, List.any_eq_true, List.any_eq_true]
            refine exists_congr fun h => and_congr_right fun mem => ?_
            obtain ⟨there, held⟩ := List.mem_filter.mp mem
            have low := (sound h there (Bool.and_eq_true_iff.mp held).1).2
            rw [Function.comp_apply, beq_iff_eq, beq_iff_eq, Fin.ext_iff]
            change routeSource bs h % 64 = routeSource bs j % 64 ↔ _
            rw [Nat.mod_eq_of_lt low, Nat.mod_eq_of_lt lowSource]
          have count := (congrArg List.length ofBus).trans (List.length_map ..)
          have judge : routeReason bs front j =
              if (routesOf bs front j).any fun h => routeSource bs h == routeSource bs j then 3
              else if 24 ≤ (routesOf bs front j).length then 4 else 0 := by
            rw [routeReason, if_neg (by omega), if_neg (by omega)]
          rw [ofNat_toFin lowBus, ofNat_toFin lowSource]
          dsimp only
          rw [again, count]
          by_cases twice : ((routesOf bs front j).any fun h => routeSource bs h == routeSource bs j) = true
          · obtain ⟨found, named⟩ := stops 3 (by rw [judge, if_pos twice]) (by decide) enabled
            rw [if_pos twice, found]
            dsimp only
            rw [named]
          · rw [if_neg twice]
            by_cases full : 24 ≤ (routesOf bs front j).length
            · obtain ⟨found, named⟩ := stops 4 (by rw [judge, if_neg twice, if_pos full]) (by decide) enabled
              rw [if_pos full, found]
              dsimp only
              rw [named]
            · rw [if_neg full]
              refine goes _ ?_ (fun h mem on => ?_) ?_
              · rw [List.filter_append, List.filter_cons_of_pos enabled, List.filter_nil, List.map_append]
                rfl
              · rcases List.mem_append.mp mem with mem | mem
                · exact sound h mem on
                · rw [List.mem_singleton.mp mem]
                  exact ⟨lowBus, lowSource⟩
              · rw [own, judge, if_neg twice, if_neg full]
                exact Bool.and_false _
        · obtain ⟨found, named⟩ := stops 2
            (by rw [routeReason, if_neg (by omega), if_pos (Nat.lt_of_succ_le highSource)]) (by decide) enabled
          rw [toFin_of_lt lowBus, toFin_of_le highSource, found]
          dsimp only
          rw [named]
      · obtain ⟨found, named⟩ := stops 1 (if_pos (Nat.lt_of_succ_le highBus)) (by decide) enabled
        rw [toFin_of_le highBus, found]
        dsimp only
        rw [named]

/-! ## The reads (R28, log 15) -/

/-- A settings read that returns notes its beats; the last one decides. -/
theorem settingsReturned_eq {i : Issued} {r : Response} {index : Nat} {g : Gather} {n : Fin 10}
    (purpose : i.purpose = .settingsRead index) (running : s.command.stopped = false)
    (gather : s.command.gather = some g) (group : g.group = some n) (owner : s.ownerStopped n = false) :
    settingsReturned i r s =
      if g.returned.length + 1 < g.total then
        { s with command := { s.command with gather := some (g.note index r) } }
      else if (g.note index r).failed then complete .invalid 0xFFFE s
      else stageGroup n (g.note index r).bytes s := by
  have length : (g.note index r).returned.length = g.returned.length + 1 := by
    rw [Gather.note, List.length_append]
    rfl
  have same : (g.note index r).group = some n := group
  have total : (g.note index r).total = g.total := rfl
  simp only [settingsReturned, purpose, gathered, running, gather, length, total, settingsGathered, same, owner,
    Bool.false_eq_true, if_false]

theorem stageGroup_stream {n : Fin 10} {m : Fin 4} (h : n.val = 2 + m.val) (bs : List Byte) (s : State) :
    stageGroup n bs s = stageStream m bs s := by
  rw [stageGroup, h]
  fin_cases m <;> rfl

theorem stageGroup_line {n : Fin 10} {l : LineId} (h : n.val = 6 + l.val) (bs : List Byte) (s : State) :
    stageGroup n bs s = stageLine l bs s := by
  rw [stageGroup, h]
  fin_cases l <;> rfl

end Sys2Proof.Machine

open Sys2Proof Sys2Proof.Machine

/-- Settles O27: the last read decides, and each group by its items in order. -/
theorem settingsGroupIsStagedOrRefused : Obligations.SettingsGroupIsStagedOrRefused := by
  refine ⟨fun c => ?codes, ?groups⟩
  case codes =>
    match c with
    | 0 | 1 | 2 | 3 | 4 | 5 => exact ⟨rfl, rfl, rfl, rfl, rfl, rfl⟩
    | c + 6 => exact ⟨rfl, rfl, rfl, rfl, rfl, rfl⟩
  case groups =>
    intro r k i index g n s answers purpose running gather group owner freed g' bs b after answered
    have run := internalReturn_of_answers (wanted := Purpose.isSettingsRead) (taken := settingsReturned) answers
      (by rw [purpose]; rfl)
    have command : answered.command = s.command := by
      unfold answered
      split <;> rfl
    have stopped : answered.ownerStopped n = false := by
      unfold answered
      split <;> exact owner
    have returned : exec (.settingsReadReturn r) s = .next (if g.returned.length + 1 < g.total then
        { answered with command := { s.command with gather := some g' } }
      else if g'.failed then complete .invalid 0xFFFE answered
      else stageGroup n bs answered) := by
      refine run.trans (congrArg _ ?_)
      rw [← command]
      exact settingsReturned_eq (s := answered) purpose (by rw [command, running]) (by rw [command, gather]) group stopped
    have staged (last : g.returned.length + 1 = g.total) (sound : g'.failed = false) :
        after (stageGroup n bs freed) := by
      have ok : answered = freed := by
        have good : r.ok = true := by
          have := (Bool.or_eq_false_iff.mp sound).2
          simpa using this
        exact if_pos good
      rw [← ok]
      refine returned.trans ?_
      rw [if_neg (by omega), sound]
      rfl
    have small (o : Nat) : b o < 256 := byteAt_lt bs o
    refine ⟨fun more => returned.trans (congrArg _ (if_pos more)), fun last => ⟨fun failed => ?failed,
      fun sound group => ?timing, fun sound group => ?labels, fun sound m group => ?stream, fun sound l group => ?line,
      fun sound group => ?routes⟩⟩
    case failed =>
      refine returned.trans ?_
      rw [if_neg (by omega), failed]
      rfl
    case timing =>
      have taken : after (stageTiming bs freed) := by
        have := staged last sound
        rwa [stageGroup, group] at this
      refine ⟨fun high => ?_, fun low => ?_⟩
      · rwa [stageTiming, decodeTiming, rateCode_none high] at taken
      · obtain ⟨rate, code⟩ := rateCode_some low
        rw [stageTiming, decodeTiming, code] at taken
        exact ⟨rate, code, taken⟩
    case labels =>
      have taken : after (stageLabels bs freed) := by
        have := staged last sound
        rwa [stageGroup, group] at this
      intro inputs buses items
      have checks : labelChecks bs = items := by
        refine congrArg (· ++ [(27, decide (250 < b 26))]) (congrArg (inputs ++ ·) (List.map_congr_left fun c _ => ?_))
        have := small (18 + c)
        exact congrArg (19 + c, ·) (decide_eq_decide.mpr (by
          change 15 < b (18 + c) ∧ b (18 + c) ≠ 255 ↔ _
          omega))
      have judged : firstFailure (labelChecks bs) = (items.find? fun y => y.2).map (·.1) := by
        rw [firstFailure_eq, checks]
      rw [stageLabels, decodeLabels, judged] at taken
      generalize found : (items.find? fun y => y.2) = first at taken ⊢
      rcases first with _ | y
      · have passed : ∀ y ∈ items, y.2 = false := by simpa using List.find?_eq_none.mp found
        have input (j : Fin 6) : b (3 * j.val) ≤ 5 ∧ b (3 * j.val + 1) ≤ 7 ∧ b (3 * j.val + 2) ≤ 3 := by
          have block := fun y mem => passed y (List.mem_append_left _ (List.mem_append_left _
            (List.mem_flatMap.mpr ⟨j.val, List.mem_range.mpr j.isLt, mem⟩)))
          simpa using block
        have bus (c : Fin 8) : b (18 + c.val) < 16 ∨ b (18 + c.val) = 255 := by
          have item := passed _ (List.mem_append_left _ (List.mem_append_right _
            (List.mem_map.mpr ⟨c.val, List.mem_range.mpr c.isLt, rfl⟩)))
          have item := of_decide_eq_false item
          have := small (18 + c.val)
          omega
        refine ⟨_, taken, rfl, fun j => ?_, fun c => ?_⟩
        · obtain ⟨function, camera, edge⟩ := input j
          rw [Fin.getElem_fin, Vector.getElem_ofFn]
          refine ⟨markFunctionCode function _, ?_, edgeCode edge _⟩
          dsimp only
          rw [toFin_of_lt (show byteAt bs (3 * j.val + 1) < 8 from Nat.lt_succ_of_le camera)]
          rfl
        · rw [Fin.getElem_fin, Vector.getElem_ofFn]
          exact toFin_map (bus c) (by decide)
      · exact taken
    case stream =>
      intro camera capacity target names inUse stage
      have taken := staged last sound
      rw [stageGroup_stream group, stageStream, decodeStream] at taken
      refine ⟨fun off => ?_, fun other => ?_, fun on => ?_⟩
      · rwa [show byteAt bs 0 = 0 from off] at taken
      · obtain ⟨c, code⟩ : ∃ c, byteAt bs 0 = c + 2 := ⟨b 0 - 2, show b 0 = _ by omega⟩
        rwa [code] at taken
      · rw [show byteAt bs 0 = 1 from on] at taken
        intro items
        have used := cameraTaken_eq freed m camera
        have checks : streamChecks (freed.cameraTaken m) bs = items := by
          have first : (7 < camera ∧ camera ≠ 255) ↔ (8 ≤ camera ∧ camera ≤ 254) := by
            have : camera < 256 := small 1
            omega
          exact congrArg₂ (fun named used => [(2, named), (3, decide (capacity < 65536 ∨ 16777216 < capacity)),
            (4, decide (target = 0 ∨ capacity ≤ target)), (5, decide (63 < b 12)),
            (6, decide (b 13 = 0 ∨ 8 < b 13)), (7, used)]) (decide_eq_decide.mpr first) used
        have judged : firstFailure (streamChecks (freed.cameraTaken m) bs) = (items.find? fun y => y.2).map (·.1) := by
          rw [firstFailure_eq, checks]
        dsimp only at taken
        rw [judged] at taken
        generalize found : (items.find? fun y => y.2) = first at taken ⊢
        rcases first with _ | y
        · have passed : ∀ y ∈ items, y.2 = false := by simpa using List.find?_eq_none.mp found
          have named : camera < 8 ∨ camera = 255 := by
            have item := of_decide_eq_false (passed _ List.mem_cons_self)
            have : camera < 256 := small 1
            omega
          exact ⟨_, taken, toFin_map named (by decide), rfl, rfl, rfl, rfl⟩
        · exact taken
    case line =>
      intro busBad others items
      have taken := staged last sound
      rw [stageGroup_line group, stageLine, decodeLine] at taken
      have checks : lineChecks (fun n => freed.otherLine l fun g => g.liveStream == some n)
          (freed.otherLine l (·.carriesLabels)) bs = items := by
        have stream : (3 < b 7 ∧ b 7 ≠ 255) ↔ (4 ≤ b 7 ∧ b 7 ≤ 254) := by
          have := small 7
          omega
        have labels : (decide (b 8 = 1) && freed.otherLine l (·.carriesLabels)) =
            (b 8 == 1 && others fun y => y.carriesLabels) := by
          rw [otherLine_eq, beq_eq_decide]
          rfl
        have used := otherLine_stream_eq freed l (b 7)
        rw [lineChecks]
        change [_, _, _, _, _, _, _, (8, decide (3 < b 7 ∧ b 7 ≠ 255)), _, _, (11, _),
          (12, decide (b 8 = 1) && freed.otherLine l (·.carriesLabels))] = _
        rw [decide_eq_decide.mpr stream, labels]
        exact congrArg (fun used => [_, _, _, _, _, _, _, _, _, _, (11, used), _]) used
      rw [firstFailure_eq, checks] at taken
      generalize found : (items.find? fun y => y.2) = first at taken ⊢
      rcases first with _ | y
      · have passed : ∀ y ∈ items, y.2 = false := by simpa using List.find?_eq_none.mp found
        obtain ⟨rate, code, loop, count, bus0, bus1, bus2, stream⟩ : b 0 ≤ 3 ∧ b 1 ≤ 2 ∧ b 2 ≤ 2 ∧ b 3 ≤ 3 ∧
            busBad 0 = false ∧ busBad 1 = false ∧ busBad 2 = false ∧ ¬ (4 ≤ b 7 ∧ b 7 ≤ 254) := by
          simp only [items, List.forall_mem_cons, decide_eq_false_iff_not, not_lt] at passed
          obtain ⟨rate, code, loop, count, bus0, bus1, bus2, stream, -⟩ := passed
          exact ⟨rate, code, loop, count, bus0, bus1, bus2, stream⟩
        have bus (j : Nat) (inList : j < b 3) : b (4 + j) < 16 := by
          have bad : busBad j = false := by
            have : j < 3 := by omega
            interval_cases j <;> assumption
          simp only [busBad, inList, decide_true, Bool.true_and, Bool.or_eq_false_iff, decide_eq_false_iff_not,
            not_lt] at bad
          omega
        have buses : ((List.range (b 3)).filterMap fun k => toFin 16 (b (4 + k))).map Fin.val =
            (List.range (b 3)).map fun j => b (4 + j) :=
          filterMap_toFin fun k mem => bus k (List.mem_range.mp mem)
        have named : b 7 < 4 ∨ b 7 = 255 := by
          have := small 7
          omega
        refine ⟨lineSettings bs, ⟨rateClassCode rate _, zeroRunCode code _, loopbackCode loop _, buses, toFin_map named (by decide),
          rfl, rfl⟩, ?_⟩
        change after (if (s.line l).refuses (lineSettings bs) then complete .conflict 0 freed else
          complete .accepted 0 (freed.setLine l { s.line l with staged := some (lineSettings bs) })) at taken
        by_cases refused : (s.line l).refuses (lineSettings bs) = true
        · rw [if_pos refused] at taken
          rwa [if_pos ((Line.refuses_iff ..).mp refused)]
        · rw [if_neg refused] at taken
          rwa [if_neg fun h => refused ((Line.refuses_iff ..).mpr h)]
      · exact taken
    case routes =>
      intro enabled bus source lower reason
      have taken := staged last sound
      rw [stageGroup, group] at taken
      change after (stageRoutes bs freed) at taken
      have judged : ∀ before j tail, List.finRange 256 = before ++ j :: tail →
          reason j = routeReason bs ([] ++ before) j := by
        intro before j tail cut
        have ascending := List.pairwise_lt_finRange 256
        rw [cut, List.pairwise_append, List.pairwise_cons] at ascending
        obtain ⟨-, ⟨above, -⟩, apart⟩ := ascending
        have below : lower j = routesOf bs before j := by
          have early : (before.filter fun h => decide (h < j) && enabled h && bus h == bus j) = routesOf bs before j :=
            List.filter_congr fun h mem => by
              rw [decide_eq_true (apart h mem j List.mem_cons_self), Bool.true_and]
              rfl
          have late : ((j :: tail).filter fun h => decide (h < j) && enabled h && bus h == bus j) = [] := by
            refine List.filter_eq_nil_iff.mpr fun h mem => ?_
            rcases List.mem_cons.mp mem with rfl | mem
            · simp
            · simp [not_lt.mpr (above h mem).le]
          change (List.finRange 256).filter _ = _
          rw [cut, List.filter_append, early, late, List.append_nil]
        change (if 15 < bus j then 1 else if 63 < source j then 2
          else if (lower j).any fun h => source h == source j then 3
          else if 24 ≤ (lower j).length then 4 else 0) = _
        rw [below]
        rfl
      have decoded : decodeRoutes bs (List.finRange 256) [] = _ :=
        decodeRoutes_eq (front := []) (rest := List.finRange 256) nofun judged
      rw [stageRoutes, decoded, List.nil_append] at taken
      obtain ⟨first, found⟩ : ∃ first, ((List.finRange 256).find? fun j => routeEnabled bs j && reason j != 0) = first :=
        ⟨_, rfl⟩
      have found' : ((List.finRange 256).find? fun j => enabled j && reason j != 0) = first := found
      rw [found] at taken
      rw [found']
      rcases first with _ | j
      · exact taken
      · exact taken

end

section
/-! SUPPORT. What each owner's reaction to a new window table leaves (R12, R34, R100, R125, R147, R211). -/

set_option Elab.async false

namespace Sys2Proof.Machine

variable {s t u : State}

/-! ## The path unit, while the owners react -/

/-- Nothing of the path unit changes but the named requesters' queues, and writes issued that become stale. -/
structure PathReacts (qs : List (Fin 8)) (s t : State) : Prop where
  windows : t.path.windows = s.path.windows
  parityBad : t.path.parityBad = s.path.parityBad
  forward : t.path.forward = s.path.forward
  tags : t.path.tags = s.path.tags
  intercepted : t.path.intercepted = s.path.intercepted
  queues : ∀ q ∉ qs, t.path.queues[q] = s.path.queues[q]
  pool : ∀ (h : Fin 32) (j : Issued), s.path.pool[h] = some j →
    ∃ late, t.path.pool[h] = some { j with stale := late } ∧ (j.stale = true → late = true)

theorem PathReacts.of_path {qs : List (Fin 8)} (h : t.path = s.path) : PathReacts qs s t where
  windows := by rw [h]
  parityBad := by rw [h]
  forward := by rw [h]
  tags := by rw [h]
  intercepted := by rw [h]
  queues q _ := by rw [h]
  pool i j held := ⟨j.stale, by rw [h, held], fun late => late⟩

theorem PathReacts.trans {ps qs : List (Fin 8)} (h : PathReacts ps s t) (k : PathReacts qs t u) :
    PathReacts (ps ++ qs) s u where
  windows := k.windows.trans h.windows
  parityBad := k.parityBad.trans h.parityBad
  forward := k.forward.trans h.forward
  tags := k.tags.trans h.tags
  intercepted := k.intercepted.trans h.intercepted
  queues q away := by
    rw [List.mem_append, not_or] at away
    exact (k.queues q away.2).trans (h.queues q away.1)
  pool i j held := by
    obtain ⟨late, held', kept⟩ := h.pool i j held
    obtain ⟨later, held'', kept'⟩ := k.pool i _ held'
    exact ⟨later, held'', kept' ∘ kept⟩

theorem PathReacts.stays_stale {qs : List (Fin 8)} (h : PathReacts qs s t) {i : Fin 32} {j : Issued}
    (held : s.path.pool[i] = some { j with stale := true }) : t.path.pool[i] = some { j with stale := true } := by
  obtain ⟨late, held', kept⟩ := h.pool i _ held
  rw [held', kept rfl]

theorem PathReacts.ownedWindow {qs : List (Fin 8)} (h : PathReacts qs s t) (k : WindowKind) :
    t.ownedWindow k = s.ownedWindow k := by
  rw [State.ownedWindow, h.windows]
  rfl

theorem PathReacts.codedWindow {qs : List (Fin 8)} (h : PathReacts qs s t) (n : Fin 4) :
    t.codedWindow n = s.codedWindow n := by
  rw [State.codedWindow, h.windows]
  rfl

theorem setQueue_pathReacts (q : Fin 8) (x : RequestQueue) (s : State) : PathReacts [q] s (s.setQueue q x) where
  windows := rfl
  parityBad := rfl
  forward := rfl
  tags := rfl
  intercepted := rfl
  queues p away := (getElem_set_fin s.path.queues q p x).trans
    (if_neg fun own => away (by simp_all))
  pool _ j held := ⟨j.stale, held, fun late => late⟩

theorem setQueue_queue (q : Fin 8) (x : RequestQueue) (s : State) : (s.setQueue q x).path.queues[q] = x :=
  (getElem_set_fin s.path.queues q q x).trans (if_pos rfl)

theorem markStale_path (wanted : Purpose → Bool) (s : State) : (markStale wanted s).path =
    { s.path with
      pool := mapTable (Option.map fun i => if wanted i.purpose then { i with stale := true } else i) s.path.pool } :=
  rfl

theorem markStale_pathReacts (wanted : Purpose → Bool) (s : State) : PathReacts [] s (markStale wanted s) := by
  constructor
  case pool =>
    intro i j held
    refine ⟨wanted j.purpose || j.stale, ?_, fun late => by rw [late, Bool.or_true]⟩
    rw [markStale_path]
    dsimp only
    rw [mapTable_get, held, Option.map_some]
    cases wanted j.purpose <;> rfl
  case queues =>
    intro q _
    rw [markStale_path]
  all_goals rw [markStale_path]

theorem markStale_pool {wanted : Purpose → Bool} {i : Fin 32} {j : Issued} (held : s.path.pool[i] = some j)
    (own : wanted j.purpose = true) : (markStale wanted s).path.pool[i] = some { j with stale := true } := by
  rw [markStale]
  dsimp only
  rw [mapTable_get, held, Option.map_some, if_pos own]

/-! ## The mixer (R71, R100) -/

theorem mixerReaction_of_window (h : (s.ownedWindow .busOut).isSome = true) : mixerReaction s = s := by
  rw [mixerReaction, if_pos h, ite_self]

theorem mixerReaction_pathReacts (s : State) : PathReacts [mixerQueue] s (mixerReaction s) := by
  unfold mixerReaction
  split
  · exact .of_path rfl
  · split
    · exact .of_path rfl
    · have dropped := setQueue_pathReacts mixerQueue { s.path.queues[mixerQueue] with later := [] } s
      exact ⟨rfl, rfl, rfl, rfl, rfl, dropped.queues, dropped.pool⟩

/-- The writes not presented go, and the entries with none outstanding (R100). -/
theorem mixerReaction_dropped (running : s.mixer.stopped = false) (h : s.ownedWindow .busOut = none) :
    ((mixerReaction s).path.queues[mixerQueue]) = { s.path.queues[mixerQueue] with later := [] } ∧
      (mixerReaction s).mixer = { s.mixer with
        busQueue := (s.mixer.busQueue.map fun e => { e with total := e.presented }).filter fun e =>
          decide (e.completed < e.presented) } := by
  rw [mixerReaction, if_neg (by simp [running]), if_neg (by simp [h])]
  refine ⟨setQueue_queue mixerQueue _ s, ?_⟩
  change ({ s.mixer with busQueue := (s.mixer.busQueue.map _).filter _ } : Mixer) = _
  have same : ((s.mixer.busQueue.map fun e => { e with total := e.presented }).filter fun e => !e.finished) =
      (s.mixer.busQueue.map fun e => { e with total := e.presented }).filter fun e =>
        decide (e.completed < e.presented) := by
    refine List.filter_congr fun e mem => ?_
    obtain ⟨d, -, rfl⟩ := List.mem_map.mp mem
    change (!(decide (d.presented ≤ d.presented) && decide (d.presented ≤ d.completed))) =
      decide (d.completed < d.presented)
    rw [decide_eq_true (Nat.le_refl _), Bool.true_and, ← decide_not]
    exact decide_eq_decide.mpr Nat.not_le
  rw [same]

/-! ## The label unit (R125) -/

/-- Record j is still owed to the ring as it was, with no write of it in flight. -/
def RingDue (j : Fin 32) (c : Clip) (t : State) : Prop :=
  t.label.clips[j] = some c ∧ t.label.inFlight ≠ some (some j)

/-- Record j is gone, or keeps its ring done flag and what keeps it from having one set. -/
def RingHeld (j : Fin 32) (x : Closing) (t : State) : Prop :=
  ∀ c', t.label.clips[j] = some c' → ∃ x', c'.closing = some x' ∧ x'.ringDone = x.ringDone ∧
    (x'.hold ≠ 0 ∨ t.label.inFlight = some (some j))

theorem freeClip_clip_other {i j : Fin 32} (h : i ≠ j) (s : State) :
    (freeClip i s).label.clips[j] = s.label.clips[j] :=
  (getElem_set_fin s.label.clips i j none).trans (if_neg h.symm)

theorem dropBadClip_clip_other {i j : Fin 32} (h : i ≠ j) (s : State) :
    (dropBadClip i s).label.clips[j] = s.label.clips[j] := by
  rw [dropBadClip_label]
  exact freeClip_clip_other h s

theorem markPosted_clip_other {i j : Fin 32} (h : i ≠ j) (f : Closing → Closing) (s : State) :
    (markPosted i f s).label.clips[j] = s.label.clips[j] := by
  unfold markPosted
  split
  · dsimp only
    split
    · exact freeClip_clip_other h s
    · exact (getElem_set_fin s.label.clips i j _).trans (if_neg h.symm)
  · rfl

theorem finishRing_ringDue {i j : Fin 32} {c : Clip} (h : i ≠ j) (due : RingDue j c s) :
    RingDue j c (finishRing i s) := by
  obtain ⟨held, landed⟩ := due
  unfold finishRing
  split
  · refine ⟨(dropBadClip_clip_other h s).trans held, ?_⟩
    rw [dropBadClip_label]
    dsimp only
    split
    · simp
    · exact landed
  · exact ⟨(markPosted_clip_other h _ s).trans held, by rwa [markPosted_inFlight]⟩

theorem ringGiveUp_eq (s : State) (i : Fin 32) :
    ringGiveUp s i = if (s.label.clips[i]).any Clip.owedToRing && s.label.inFlight != some (some i) then
      finishRing i s else s := by
  unfold ringGiveUp finishRing
  rcases s.label.clips[i] with _ | c <;> rfl

theorem Clip.owedToRing_iff {c : Clip} {x : Closing} (closed : c.closing = some x) :
    c.owedToRing = true ↔ x.hold = 0 ∧ x.ringDone = false := by
  simp [Clip.owedToRing, Clip.closedWith, closed]

theorem ringGiveUp_recordsGo (s : State) (i : Fin 32) : RecordsGo s (ringGiveUp s i) := by
  rw [ringGiveUp_eq]
  split
  · exact finishRing_recordsGo ..
  · exact .of_label rfl rfl

theorem foldl_ringGiveUp_recordsGo (is : List (Fin 32)) (s : State) : RecordsGo s (is.foldl ringGiveUp s) := by
  induction is generalizing s with
  | nil => exact .of_label rfl rfl
  | cons i is ih => exact (ringGiveUp_recordsGo s i).trans (ih _)

/-- Each record of the list still owed to the ring is done with it at the end (R125). -/
theorem foldl_ringGiveUp_done {j : Fin 32} {c : Clip} {x : Closing} (closed : c.closing = some x) (hold : x.hold = 0)
    (owed : x.ringDone = false) (is : List (Fin 32)) (mem : j ∈ is) (due : RingDue j c s) :
    let t := is.foldl ringGiveUp s
    (x.uplinkDone = true ∨ c.parityBad = true → t.label.clips[j] = none ∧ j ∉ t.label.order) ∧
    (∀ c', t.label.clips[j] = some c' → ∃ x', c'.closing = some x' ∧ x'.ringDone = true) := by
  induction is generalizing s with
  | nil => cases mem
  | cons i is ih =>
    by_cases own : i = j
    · subst own
      obtain ⟨held, landed⟩ := due
      have first : ringGiveUp s i = finishRing i s := by
        rw [ringGiveUp_eq, held, if_pos]
        simp [(Clip.owedToRing_iff closed).mpr ⟨hold, owed⟩, landed]
      intro t
      have rest : RecordsGo (finishRing i s) t := by
        rw [← first]
        exact foldl_ringGiveUp_recordsGo is _
      exact rest.finished (finishRing_done held closed)
    · refine ih ((List.mem_cons.mp mem).resolve_left (Ne.symm own)) ?_
      rw [ringGiveUp_eq]
      split
      · exact finishRing_ringDue own due
      · exact due

/-- The steps that keep a held record: dropping one, and marking the uplink done. -/
theorem dropBadClip_ringHeld {j : Fin 32} {x : Closing} (i : Fin 32) (held : RingHeld j x s) :
    RingHeld j x (dropBadClip i s) := by
  by_cases own : i = j
  · subst own
    intro c' there
    rw [(dropBadClip_gone i s).1] at there
    cases there
  · intro c' there
    rw [dropBadClip_clip_other own] at there
    obtain ⟨x', closed, same, stays⟩ := held c' there
    refine ⟨x', closed, same, stays.imp_right fun flight => ?_⟩
    rw [dropBadClip_label]
    dsimp only
    rw [if_neg (by simp [flight, Ne.symm own]), flight]

theorem markPosted_ringHeld {j : Fin 32} {x : Closing} (i : Fin 32) {f : Closing → Closing}
    (h : i = j → ∀ k, (f k).ringDone = k.ringDone ∧ (f k).hold = k.hold) (held : RingHeld j x s) :
    RingHeld j x (markPosted i f s) := by
  intro c' there
  rw [markPosted_inFlight]
  by_cases own : i = j
  · subst own
    unfold markPosted at there
    rcases old : s.label.clips[i] with _ | c
    · rw [old] at there
      exact held c' there
    · rw [old] at there
      dsimp only at there
      obtain ⟨y, closed, same, stays⟩ := held c old
      obtain ⟨ring, hold⟩ := h rfl y
      split at there
      · rw [(freeClip_gone i s).1] at there
        cases there
      · cases ((getElem_set_fin s.label.clips i i _).trans (if_pos rfl)).symm.trans there
        exact ⟨f y, by simp [Clip.mapClosing, closed], ring.trans same, by rwa [hold]⟩
  · rw [markPosted_clip_other own] at there
    exact held c' there

/-- No record that is held has its ring done flag set. -/
theorem finishRing_ringHeld {i j : Fin 32} {x : Closing} (guard : i = j → ∀ c, s.label.clips[i] = some c →
    c.released = true ∧ s.label.inFlight ≠ some (some i)) (held : RingHeld j x s) : RingHeld j x (finishRing i s) := by
  by_cases own : i = j
  · subst own
    have gone : s.label.clips[i] = none := by
      rcases there : s.label.clips[i] with _ | c
      · rfl
      · obtain ⟨released, landed⟩ := guard rfl c there
        obtain ⟨x', closed, -, stays⟩ := held c there
        rcases stays with hold | flight
        · simp [Clip.released, Clip.closedWith, closed, hold] at released
        · exact absurd flight landed
    intro c' there
    rw [(finishRing_recordsGo i s).gone i gone] at there
    cases there
  · unfold finishRing
    split
    · exact dropBadClip_ringHeld i held
    · exact markPosted_ringHeld i (fun same => absurd same own) held

theorem ringGiveUp_ringHeld {j : Fin 32} {x : Closing} (i : Fin 32) (held : RingHeld j x s) :
    RingHeld j x (ringGiveUp s i) := by
  rw [ringGiveUp_eq]
  split
  next due =>
    refine finishRing_ringHeld (fun _ c there => ?_) held
    rw [there, Option.any_some, Bool.and_eq_true, bne_iff_ne] at due
    refine ⟨?_, due.2⟩
    rcases closed : c.closing with _ | y
    · simp [Clip.owedToRing, Clip.closedWith, closed] at due
    · obtain ⟨hold, -⟩ := (Clip.owedToRing_iff closed).mp due.1
      simp [Clip.released, Clip.closedWith, closed, hold]
  next => exact held

theorem ringOnce_ringHeld {j : Fin 32} {x : Closing} (s : State) (held : RingHeld j x s) :
    RingHeld j x (ringOnce s).1 := by
  unfold ringOnce
  split
  · exact held
  next i _ =>
    split
    · exact held
    next c there =>
      split
      · exact dropBadClip_ringHeld i held
      next good =>
        split
        next due =>
          rw [Bool.and_eq_true, bne_iff_ne] at due
          have same : markPosted i (fun k => { k with ringDone := true }) s = finishRing i s := by
            rw [finishRing, there, Option.any_some, if_neg good]
          rw [same]
          refine finishRing_ringHeld (fun _ d there' => ?_) held
          cases there.symm.trans there'
          exact due
        next => exact held

theorem postSettle_ringHeld {j : Fin 32} {x : Closing} (held : RingHeld j x s) : RingHeld j x (postSettle s) := by
  have ring : RingHeld j x (ringSettle s) := by
    unfold ringSettle
    split
    · exact held
    · split
      · exact held
      · exact settle_induction (motive := fun s t => RingHeld j x s → RingHeld j x t) ringOnce (fun _ h => h)
          ringOnce_ringHeld (fun h k => k ∘ h) _ s held
  unfold postSettle uplinkSettle
  split
  · exact ring
  · exact settle_induction (motive := fun s t => RingHeld j x s → RingHeld j x t) uplinkOnce (fun _ h => h)
      (uplinkOnce_induction (motive := fun s t => RingHeld j x s → RingHeld j x t) (fun _ h => h) (fun h k => k ∘ h)
        (fun i _ => dropBadClip_ringHeld i) (fun i _ => markPosted_ringHeld i fun _ _ => ⟨rfl, rfl⟩) fun _ _ h => h)
      (fun h k => k ∘ h) _ _ ring

/-- The label unit before its records are looked at: counts 0, its writes issued or waiting stale (R125, log 35). -/
def labelWindowLeft (s : State) : State :=
  stopWaitingLabel (markStale Purpose.isLabelWrite
    (s.setLabel { s.label with written := 0, consumed := 0, slot := 0 }))

theorem labelWindowChanged_eq (s : State) :
    labelWindowChanged s = postSettle (ringGone (labelWindowLeft s)) := rfl

theorem labelWindowLeft_pathReacts (s : State) : PathReacts [labelQueue] s (labelWindowLeft s) := by
  have counts : PathReacts [] s (s.setLabel { s.label with written := 0, consumed := 0, slot := 0 }) := .of_path rfl
  exact (counts.trans (markStale_pathReacts Purpose.isLabelWrite _)).trans (setQueue_pathReacts labelQueue _ _)

theorem labelWindowChanged_settled (s : State) : LabelSettled (labelWindowLeft s) (labelWindowChanged s) :=
  (ringGone_settled _).trans (postSettle_settled _)

theorem LabelSettled.path (h : LabelSettled s t) : t.path = s.path := by
  rw [h]

theorem labelWindowChanged_pathReacts (s : State) : PathReacts [labelQueue] s (labelWindowChanged s) := by
  have all : PathReacts ([labelQueue] ++ []) s (labelWindowChanged s) :=
    (labelWindowLeft_pathReacts s).trans (.of_path (labelWindowChanged_settled s).path)
  exact all

theorem labelReaction_pathReacts (old s : State) : PathReacts [labelQueue] s (labelReaction old s) := by
  unfold labelReaction
  split
  · exact .of_path rfl
  · split
    · exact .of_path rfl
    · exact labelWindowChanged_pathReacts s

theorem labelReaction_report (old s : State) :
    (labelReaction old s).report = { s.report with queue := (labelReaction old s).report.queue } := by
  unfold labelReaction
  split
  · rfl
  · split
    · rfl
    · rw [labelWindowChanged_settled s]
      rfl

theorem labelReaction_fault (old s : State) :
    (labelReaction old s).fault = { s.fault with classes := (labelReaction old s).fault.classes } := by
  unfold labelReaction
  split
  · rfl
  · split
    · rfl
    · rw [labelWindowChanged_settled s]
      rfl

theorem labelWindowChanged_stale {h : Fin 32} {j : Issued} (held : s.path.pool[h] = some j)
    (own : j.purpose.isLabelWrite = true) :
    (labelWindowChanged s).path.pool[h] = some { j with stale := true } := by
  have pool : (labelWindowLeft s).path.pool = (markStale Purpose.isLabelWrite s).path.pool := rfl
  rw [(labelWindowChanged_settled s).path, pool]
  exact markStale_pool held own

theorem stopWaitingLabel_queue (s : State) : (stopWaitingLabel s).path.queues[labelQueue] =
    { s.path.queues[labelQueue] with
      waiting := (s.path.queues[labelQueue]).waiting.map fun w => { w with stale := true } } := by
  rw [stopWaitingLabel]
  dsimp only
  rw [setQueue_queue]

theorem labelWindowChanged_waiting {w : Waiting} (waits : (s.path.queues[labelQueue]).waiting = some w) :
    ((labelWindowChanged s).path.queues[labelQueue]).waiting = some { w with stale := true } := by
  have queues : (markStale Purpose.isLabelWrite
    (s.setLabel { s.label with written := 0, consumed := 0, slot := 0 })).path.queues = s.path.queues := by
    rw [markStale_path]
    rfl
  rw [(labelWindowChanged_settled s).path, labelWindowLeft, stopWaitingLabel_queue, queues]
  exact congrArg (Option.map _) waits

/-- The counts are 0 and the settings stay (R125). -/
theorem labelWindowChanged_unit (s : State) :
    (labelWindowChanged s).label.written = 0 ∧ (labelWindowChanged s).label.consumed = 0 ∧
      (labelWindowChanged s).label.slot = 0 ∧ (labelWindowChanged s).label.applied = s.label.applied ∧
      (labelWindowChanged s).label.staged = s.label.staged := by
  rw [labelWindowChanged_settled s]
  exact ⟨rfl, rfl, rfl, rfl, rfl⟩

/-- With the window gone each released record still owed to the ring is done with it (R125). -/
theorem labelWindowChanged_done {j : Fin 32} {c : Clip} {x : Closing} (running : s.label.stopped = false)
    (gone : s.ownedWindow .label = none) (mem : j ∈ s.label.order) (held : s.label.clips[j] = some c)
    (closed : c.closing = some x) (hold : x.hold = 0) (owed : x.ringDone = false)
    (landed : s.label.inFlight ≠ some (some j)) :
    (x.uplinkDone = true → (labelWindowChanged s).label.clips[j] = none ∧ j ∉ (labelWindowChanged s).label.order) ∧
    (∀ c', (labelWindowChanged s).label.clips[j] = some c' → ∃ x', c'.closing = some x' ∧ x'.ringDone = true) := by
  have window : (labelWindowLeft s).ownedWindow .label = none :=
    ((labelWindowLeft_pathReacts s).ownedWindow .label).trans gone
  have given : ringGone (labelWindowLeft s) = (labelWindowLeft s).label.order.foldl ringGiveUp (labelWindowLeft s) := by
    have going : (labelWindowLeft s).label.stopped = false := running
    rw [ringGone, going, window]
    rfl
  have done := foldl_ringGiveUp_done (s := labelWindowLeft s) closed hold owed (labelWindowLeft s).label.order mem
    ⟨held, landed⟩
  dsimp only at done
  rw [← given] at done
  obtain ⟨away, flag⟩ := (postSettle_recordsGo (ringGone (labelWindowLeft s))).finished done
  exact ⟨fun uplink => away (.inl uplink), flag⟩

/-- A record that is not owed, in flight, or has a window to go to keeps its ring done flag (R125). -/
theorem labelWindowChanged_held {j : Fin 32} {c : Clip} {x : Closing} (held : s.label.clips[j] = some c)
    (closed : c.closing = some x)
    (stays : s.ownedWindow .label ≠ none ∨ x.hold ≠ 0 ∨ s.label.inFlight = some (some j)) :
    ∀ c' x', (labelWindowChanged s).label.clips[j] = some c' → c'.closing = some x' → x'.ringDone = x.ringDone := by
  rcases stays with window | stays
  · have there : ((labelWindowLeft s).ownedWindow .label).isSome = true := by
      rw [(labelWindowLeft_pathReacts s).ownedWindow]
      exact Option.isSome_iff_ne_none.mpr window
    have kept := (postSettle_recordsKeepRing there).kept
    intro c' x' held' closed'
    refine kept j c c' x x' held closed ?_ closed'
    rw [labelWindowChanged_eq, ringGone, if_pos there, ite_self] at held'
    exact held'
  · have start : RingHeld j x (labelWindowLeft s) := by
      intro c' held'
      cases held.symm.trans held'
      exact ⟨x, closed, rfl, stays⟩
    have all (is : List (Fin 32)) (t : State) (h : RingHeld j x t) : RingHeld j x (is.foldl ringGiveUp t) := by
      induction is generalizing t with
      | nil => exact h
      | cons i is ih => exact ih _ (ringGiveUp_ringHeld i h)
    have given : RingHeld j x (ringGone (labelWindowLeft s)) := by
      unfold ringGone
      split
      · exact start
      · split
        · exact start
        · exact all _ _ start
    intro c' x' held' closed'
    obtain ⟨y, there, same, -⟩ := postSettle_ringHeld given c' held'
    cases closed'.symm.trans there
    exact same

/-! ## Events told beside others (R30, R31) -/

/-- The queue holds a STREAM record of stream n with a flush. -/
def FlushTold (n : Fin 4) (s : State) : Prop :=
  ∃ q ∈ s.report.queue, q.object = n.val ∧ ∃ d c f p, q.detail = .stream d c f p ∧ 1 ≤ f

/-- Nothing of the report unit changes but its queue, which keeps what is told. -/
structure OffersOnly (s t : State) : Prop where
  report : t.report = { s.report with queue := t.report.queue }
  told : ∀ n, FlushTold n s → FlushTold n t

theorem OffersOnly.of_report (h : t.report = s.report) : OffersOnly s t :=
  ⟨by rw [h], fun n => by rw [FlushTold, FlushTold, h]; exact fun told => told⟩

theorem OffersOnly.trans (h : OffersOnly s t) (k : OffersOnly t u) : OffersOnly s u :=
  ⟨by rw [k.report, h.report], fun n => k.told n ∘ h.told n⟩

/-- A STREAM record keeps its flush count at 1 or more, whatever joins it. -/
theorem offer_flushTold (object : Nat) (d : Detail) {n : Fin 4} (told : FlushTold n s) :
    FlushTold n (offer object d s) := by
  obtain ⟨q, mem, own, a, b, f, p, detail, flushed⟩ := told
  unfold offer
  split
  next =>
    change ∃ y ∈ takeEvent _ _, _
    by_cases pair : q.pair = (s.firstRecord object d).pair
    · rw [takeEvent, if_pos (List.any_eq_true.mpr ⟨q, mem, ofPair_iff.mpr pair⟩)]
      refine ⟨q.coalesce d, List.mem_map.mpr ⟨q, mem, if_pos (ofPair_iff.mpr pair)⟩, own, ?_⟩
      have kind : d.kind = 4 := by
        have same : q.detail.kind = d.kind := congrArg Prod.fst pair
        rw [← same, detail]
        rfl
      obtain ⟨a', b', f', p', stream⟩ : ∃ a b f p, d = .stream a b f p := by
        cases d <;> simp_all [Detail.kind]
      refine ⟨_, _, _, _, by rw [Record.coalesce, detail, stream]; rfl, ?_⟩
      simp only [satSum]
      omega
    · exact ⟨q, (mem_takeEvent_other pair).mpr mem, own, a, b, f, p, detail, flushed⟩
  next => exact ⟨q, mem, own, a, b, f, p, detail, flushed⟩

theorem offer_offersOnly (object : Nat) (d : Detail) (s : State) : OffersOnly s (offer object d s) := by
  refine ⟨?_, fun n => offer_flushTold object d⟩
  unfold offer
  split <;> rfl

theorem OffersOnly.of_offer {object : Nat} {d : Detail} (h : t.report = s.report) : OffersOnly s (offer object d t) :=
  (OffersOnly.of_report h).trans (offer_offersOnly object d t)

/-- In NORMAL mode the event of a flush is told. -/
theorem offer_flush {n : Fin 4} (c : Count32) (normal : s.isNormal = true) :
    FlushTold n (offer n.val (.stream 0 0 1 c) s) := by
  rw [offer_of_normal _ _ normal]
  change ∃ q ∈ takeEvent _ _, _
  unfold takeEvent
  split
  next pending =>
    obtain ⟨q, mem, own⟩ := List.any_eq_true.mp pending
    refine ⟨q.coalesce (.stream 0 0 1 c), List.mem_map.mpr ⟨q, mem, if_pos own⟩, ?_, ?_⟩
    · exact congrArg Prod.snd (ofPair_iff.mp own)
    · have kind : q.detail.kind = 4 := congrArg Prod.fst (ofPair_iff.mp own)
      obtain ⟨a, b, f, p, stream⟩ : ∃ a b f p, q.detail = .stream a b f p := by
        cases detail : q.detail <;> simp_all [Detail.kind]
      refine ⟨_, _, _, _, by rw [Record.coalesce, stream]; rfl, ?_⟩
      simp only [satSum]
      omega
  next => exact ⟨_, (enterQueue_perm _ _).mem_iff.mpr List.mem_cons_self, rfl, _, _, _, _, rfl, Nat.le_refl 1⟩

/-! ## The governor (R147) -/

/-- A stream's window had a place and has another, or none. -/
def windowMoved (old new : Option WindowEntry) : Prop := old.isSome = true ∧ placeOf old ≠ placeOf new

theorem streamWindowChanged_eq (n : Fin 4) (old new : Option WindowEntry) (s : State) [Decidable (windowMoved old new)] :
    streamWindowChanged n old new s =
      if windowMoved old new then changeEvent n (s.setStream n (s.stream n).flush) else s := by
  rcases old with _ | o
  · exact (if_neg fun moved => by cases moved.1).symm
  · rcases new with _ | w
    · exact (if_pos ⟨rfl, by simp [placeOf]⟩).symm
    · rw [streamWindowChanged]
      by_cases same : o.base = w.base ∧ o.size = w.size
      · rw [if_pos same, if_neg fun moved => moved.2 (by simp [placeOf, same])]
      · rw [if_neg same, if_pos ⟨rfl, by simpa [placeOf] using same⟩]

theorem changeEvent_stream (n m : Fin 4) (s : State) : (changeEvent n s).stream m = s.stream m := by
  unfold changeEvent
  unfold State.stream
  rw [(offer_changes ..).governor]

/-- One stream's part of the reaction. -/
structure StreamReacts (n : Fin 4) (old new : Option WindowEntry) (s t : State) : Prop where
  others : ∀ m, m ≠ n → t.stream m = s.stream m
  kept : ¬ windowMoved old new → t.stream n = s.stream n
  flushed : windowMoved old new → t.stream n = (s.stream n).flush ∧ (s.isNormal = true → FlushTold n t)
  offers : OffersOnly s t
  changes : ChangesOnly [.report, .governor] s t

theorem streamWindowChanged_reacts (n : Fin 4) (old new : Option WindowEntry) (s : State) :
    StreamReacts n old new s (streamWindowChanged n old new s) := by
  classical
  have changes := streamWindowChanged_changes n old new s
  rw [streamWindowChanged_eq] at changes ⊢
  by_cases moved : windowMoved old new
  · rw [if_pos moved] at changes ⊢
    refine ⟨fun m other => ?_, fun stays => absurd moved stays, fun _ => ⟨?_, fun normal => ?_⟩, ?_, changes⟩
    · rw [changeEvent_stream, State.setStream_stream, if_neg other]
    · rw [changeEvent_stream, State.setStream_stream_same]
    · exact offer_flush _ normal
    · unfold changeEvent
      exact .of_offer rfl
  · rw [if_neg moved] at changes ⊢
    exact ⟨fun _ _ => rfl, fun _ => rfl, fun moves => absurd moves moved, .of_report rfl, changes⟩

/-- The reaction stream by stream: each stream of the list has its part, once. -/
theorem foldl_streamReacts (old : State) (ns : List (Fin 4)) (distinct : ns.Nodup) (s : State)
    (normal : s.isNormal = true) :
    let t := ns.foldl (fun s n => streamWindowChanged n (old.codedWindow n) (s.codedWindow n) s) s
    OffersOnly s t ∧ ChangesOnly [.report, .governor] s t ∧ (∀ n ∉ ns, t.stream n = s.stream n) ∧
    ∀ n ∈ ns,
      (¬ windowMoved (old.codedWindow n) (s.codedWindow n) → t.stream n = s.stream n) ∧
      (windowMoved (old.codedWindow n) (s.codedWindow n) → t.stream n = (s.stream n).flush ∧ FlushTold n t) := by
  induction ns generalizing s with
  | nil => exact ⟨.of_report rfl, .refl, fun _ _ => rfl, fun n mem => by cases mem⟩
  | cons m ns ih =>
    obtain ⟨fresh, distinct'⟩ := List.nodup_cons.mp distinct
    have step := streamWindowChanged_reacts m (old.codedWindow m) (s.codedWindow m) s
    have fault := step.changes.fault
    have path := step.changes.path
    obtain ⟨offers, changes, away, each⟩ := ih distinct' (streamWindowChanged m (old.codedWindow m) (s.codedWindow m) s)
      (by rw [State.isNormal, fault]; exact normal)
    have window (n : Fin 4) : (streamWindowChanged m (old.codedWindow m) (s.codedWindow m) s).codedWindow n =
        s.codedWindow n := by
      rw [State.codedWindow, path]
      rfl
    refine ⟨step.offers.trans offers, step.changes.trans changes, fun n mem => ?_, fun n mem => ?_⟩
    · rw [List.mem_cons, not_or] at mem
      exact (away n mem.2).trans (step.others n mem.1)
    · rcases List.mem_cons.mp mem with rfl | later
      · refine ⟨fun stays => (away n fresh).trans (step.kept stays), fun moved => ?_⟩
        obtain ⟨flushed, told⟩ := step.flushed moved
        exact ⟨(away n fresh).trans flushed, offers.told n (told normal)⟩
      · have other : n ≠ m := fun same => fresh (same ▸ later)
        have result := each n later
        rw [window, step.others n other] at result
        exact result

/-- The notices of a flush, with the first and the last owed picture side by side. -/
theorem Stream.flush_eq (x : Stream) :
    let owed := x.pictures.filter fun p => p.state != .corrupt
    x.flush = { x with
      pictures := []
      fill := 0
      keyRequest := true
      claim := x.claim.map fun c => { c with isVoid := true }
      notices := (match owed.head?, owed.getLast? with
        | some p, some q => addNotice p.number q.number (owed.any fun y => decide (y.unsent < y.length)) x.notices
        | _, _ => x.notices) } := by
  intro owed
  obtain ⟨none', some'⟩ := Stream.flush_notices x
  have notices : x.flush.notices = (match owed.head?, owed.getLast? with
      | some p, some q => addNotice p.number q.number (owed.any fun y => decide (y.unsent < y.length)) x.notices
      | _, _ => x.notices) := by
    rcases first : owed.head? with _ | p
    · exact none' (List.head?_eq_none_iff.mp first)
    · rcases last : owed.getLast? with _ | q
      · rw [List.getLast?_eq_none_iff.mp last] at first
        cases first
      · exact some' p q first last
  rw [← notices]
  rfl

/-! ## The report unit (R34) -/

theorem reportReaction_pathReacts (old s : State) : PathReacts [] s (reportReaction old s) := by
  unfold reportReaction
  split
  · exact .of_path rfl
  · split
    · exact .of_path rfl
    · exact (PathReacts.of_path (qs := []) (s := s)
        (t := { s with report := { s.report with written := 0, consumed := 0, slot := 0 } }) rfl).trans
        (markStale_pathReacts Purpose.isReportPost _)

theorem reportReaction_report (old s : State) : (reportReaction old s).report =
    if s.report.stopped ∨ placeOf (old.ownedWindow .report) = placeOf (s.ownedWindow .report) then s.report
    else { s.report with written := 0, consumed := 0, slot := 0 } := by
  unfold reportReaction
  split
  next stopped => rw [if_pos (.inl stopped)]
  next running =>
    split
    next same => rw [if_pos (.inr same)]
    next moved =>
      rw [if_neg (by simp [running, moved])]
      rfl

theorem reportReaction_offersOnly_queue (old s : State) :
    (reportReaction old s).report.queue = s.report.queue := by
  rw [reportReaction_report]
  split <;> rfl

theorem reportReaction_stale {old : State} {h : Fin 32} {j : Issued} (running : s.report.stopped = false)
    (moved : placeOf (old.ownedWindow .report) ≠ placeOf (s.ownedWindow .report)) (held : s.path.pool[h] = some j)
    (own : j.purpose.isReportPost = true) : (reportReaction old s).path.pool[h] = some { j with stale := true } := by
  rw [reportReaction, if_neg (by simp [running]), if_neg moved]
  exact markStale_pool (s := { s with report := { s.report with written := 0, consumed := 0, slot := 0 } }) held own

/-! ## The fault unit (R211) -/

/-- Only the open block writes of the fault unit change, and events are offered. -/
structure BlocksDone (s t : State) : Prop where
  offers : OffersOnly s t
  fault : t.fault = { s.fault with writes := t.fault.writes }
  path : t.path = s.path

theorem BlocksDone.refl (s : State) : BlocksDone s s := ⟨.of_report rfl, rfl, rfl⟩

theorem BlocksDone.trans (h : BlocksDone s t) (k : BlocksDone t u) : BlocksDone s u :=
  ⟨h.offers.trans k.offers, by rw [k.fault, h.fault], k.path.trans h.path⟩

theorem blockDone_blocksDone (serial : Nat) (s : State) : BlocksDone s (blockDone serial s) := by
  have all (gs : List IntervalWrites) (s : State) :
      OffersOnly s (gs.foldl (fun t g => offer 0 (.measure g.number) t) s) ∧
      (gs.foldl (fun t g => offer 0 (.measure g.number) t) s).fault = s.fault := by
    induction gs generalizing s with
    | nil => exact ⟨.of_report rfl, rfl⟩
    | cons g gs ih =>
      obtain ⟨offers, fault⟩ := ih (offer 0 (.measure g.number) s)
      exact ⟨(offer_offersOnly ..).trans offers, fault.trans (offer_changes ..).fault⟩
  have path := (blockDone_changes serial s).path
  refine ⟨?_, ?_, path⟩
  · rw [blockDone_eq]
    exact (all _ s).1.trans (.of_report rfl)
  · rw [blockDone_eq]
    dsimp only
    rw [(all _ s).2]

theorem dropBlockWrites_queue (s : State) :
    BlocksDone (s.setQueue faultQueue { s.path.queues[faultQueue] with later := [] }) (dropBlockWrites s) := by
  have all (ms : List Made) (s : State) : BlocksDone s (ms.foldl (fun s m =>
      match m.purpose with
      | .measWrite serial _ _ => blockDone serial s
      | _ => s) s) := by
    induction ms generalizing s with
    | nil => exact .refl s
    | cons m ms ih =>
      refine BlocksDone.trans (t := match m.purpose with
        | .measWrite serial _ _ => blockDone serial s
        | _ => s) ?_ (ih _)
      cases m.purpose with
      | measWrite serial _ _ => exact blockDone_blocksDone serial s
      | _ => exact .refl s
  exact all _ _

/-- What the reaction leaves of the fault unit, with the window as it was, moved, or gone (R211). -/
structure FaultReacts (old s t : State) : Prop where
  offers : OffersOnly s t
  path : PathReacts [faultQueue] s t
  waiting : (t.path.queues[faultQueue]).waiting = (s.path.queues[faultQueue]).waiting
  totals : t.fault.totals = s.fault.totals
  number : t.fault.number = s.fault.number
  buffer : t.fault.buffer = s.fault.buffer
  interval : t.fault.interval = s.fault.interval
  same : placeOf (old.ownedWindow .meas) = placeOf (s.ownedWindow .meas) → t = s
  moved : placeOf (old.ownedWindow .meas) ≠ placeOf (s.ownedWindow .meas) → s.ownedWindow .meas ≠ none →
    t.fault = s.fault ∧
    (t.path.queues[faultQueue]).later = (s.path.queues[faultQueue]).later.map Made.reAimed
  gone : placeOf (old.ownedWindow .meas) ≠ placeOf (s.ownedWindow .meas) → s.ownedWindow .meas = none →
    t.fault = { s.fault with
      state := .inactive, stagedInterval := none, frames := 0, writes := t.fault.writes } ∧
    (t.path.queues[faultQueue]).later = []

theorem faultReaction_reacts (old s : State) (normal : s.isNormal = true) :
    FaultReacts old s (faultReaction old s) := by
  unfold faultReaction
  rw [if_neg (by simp [normal])]
  split
  next same =>
    exact ⟨.of_report rfl, .of_path rfl, rfl, rfl, rfl, rfl, rfl, fun _ => rfl, fun moved => absurd same moved,
      fun moved => absurd same moved⟩
  next moved =>
    split
    next there =>
      unfold measWindowMoved
      refine ⟨.of_report rfl, setQueue_pathReacts .., by rw [setQueue_queue], rfl, rfl, rfl, rfl,
        fun same => absurd same moved, fun _ _ => ⟨rfl, by rw [setQueue_queue]⟩, fun _ gone => ?_⟩
      rw [gone] at there
      cases there
    next gone =>
      have done := dropBlockWrites_queue (s.setFault s.fault.stop)
      have fault := done.fault
      have queue : (measWindowGone s).path.queues[faultQueue] =
          { s.path.queues[faultQueue] with later := [] } := by
        rw [measWindowGone, done.path]
        exact setQueue_queue faultQueue _ (s.setFault s.fault.stop)
      have offers : OffersOnly s (measWindowGone s) :=
        OffersOnly.trans (t := (s.setFault s.fault.stop).setQueue faultQueue
          { (s.setFault s.fault.stop).path.queues[faultQueue] with later := [] }) (.of_report rfl) done.offers
      have path : PathReacts [faultQueue] s (measWindowGone s) := by
        have dropped := (setQueue_pathReacts faultQueue { s.path.queues[faultQueue] with later := [] } s).trans
          (PathReacts.of_path (qs := []) (t := measWindowGone s) done.path)
        exact dropped
      refine ⟨offers, path, by rw [queue], ?_, ?_, ?_, ?_,
        fun same => absurd same moved, fun _ there => absurd (Option.isSome_iff_ne_none.mpr there) gone, fun _ _ => ⟨?_, by rw [queue]⟩⟩
      all_goals
        rw [measWindowGone, fault]
        rfl

/-! ## All the reactions (R12) -/

/-- The table is the applied one, no owner having reacted. -/
def withTable (table : Vector WindowEntry 16) (s : State) : State :=
  { s with path := { s.path with windows := table, parityBad := Vector.replicate 16 false } }

theorem labelReaction_label (old s : State) :
    (labelReaction old s).label =
      if s.label.stopped ∨ placeOf (old.ownedWindow .label) = placeOf (s.ownedWindow .label) then s.label
      else (labelWindowChanged s).label := by
  unfold labelReaction
  split
  next stopped => rw [if_pos (.inl stopped)]
  next running =>
    split
    next same => rw [if_pos (.inr same)]
    next moved => rw [if_neg (by simp [running, moved])]

/-- The states between the owners' reactions, and what each leaves of the path unit. -/
structure TableReacts (table : Vector WindowEntry 16) (s m l g f u : State) : Prop where
  mixed : m = mixerReaction (withTable table s)
  labelled : l = labelReaction s m
  governed : g = governorReaction s l
  reported : f = reportReaction s g
  normal : l.isNormal = true
  mixerPath : PathReacts [mixerQueue] (withTable table s) m
  labelPath : PathReacts [labelQueue] m l
  governorPath : PathReacts [] l g
  reportPath : PathReacts [] g f
  fault : FaultReacts s f u
  changes : ChangesOnly [.path, .report, .fault] f u

theorem applyTable_reacts (table : Vector WindowEntry 16) (normal : s.isNormal = true) :
    ∃ m l g f, TableReacts table s m l g f (applyTable table s) := by
  have mixed : (mixerReaction (withTable table s)).fault = s.fault := (mixerReaction_changes (withTable table s)).fault
  have labelled : (labelReaction s (mixerReaction (withTable table s))).isNormal = true := by
    rw [State.isNormal, labelReaction_fault, mixed]
    exact normal
  refine ⟨_, _, _, _, rfl, rfl, rfl, rfl, labelled, mixerReaction_pathReacts _, labelReaction_pathReacts ..,
    .of_path (governorReaction_changes ..).path, reportReaction_pathReacts .., faultReaction_reacts _ _ ?_,
    faultReaction_changes ..⟩
  rw [State.isNormal, (reportReaction_changes ..).fault, (governorReaction_changes ..).fault]
  exact labelled

namespace TableReacts

variable {table : Vector WindowEntry 16} {m l g f : State}

theorem path (h : TableReacts table s m l g f u) :
    PathReacts [mixerQueue, labelQueue, faultQueue] (withTable table s) u :=
  (((h.mixerPath.trans h.labelPath).trans h.governorPath).trans h.reportPath).trans h.fault.path

theorem window_mixer (h : TableReacts table s m l g f u) (k : WindowKind) :
    m.ownedWindow k = u.ownedWindow k :=
  (h.mixerPath.ownedWindow k).trans (h.path.ownedWindow k).symm

theorem window_governor (h : TableReacts table s m l g f u) (k : WindowKind) :
    g.ownedWindow k = u.ownedWindow k :=
  ((h.governorPath.ownedWindow k).trans (h.labelPath.ownedWindow k)).trans (h.window_mixer k)

theorem window_report (h : TableReacts table s m l g f u) (k : WindowKind) :
    f.ownedWindow k = u.ownedWindow k :=
  (h.fault.path.ownedWindow k).symm

theorem others (h : TableReacts table s m l g f u) :
    ChangesOnly [.path, .report, .mixer, .label, .governor, .fault] s u := by
  have first : ChangesOnly [.path] s (withTable table s) := by
    constructor
    intro p other
    cases p <;> simp_all [Part.same, withTable]
  have mixed : ChangesOnly [.path, .mixer] (withTable table s) m := h.mixed ▸ mixerReaction_changes _
  have labelled : ChangesOnly [.path, .label, .report, .fault] m l := h.labelled ▸ labelReaction_changes ..
  have governed : ChangesOnly [.report, .governor] l g := h.governed ▸ governorReaction_changes ..
  have reported : ChangesOnly [.path, .report] g f := h.reported ▸ reportReaction_changes ..
  exact h.changes.after (reported.after (governed.after (labelled.after (mixed.after (first.mono (by decide))))))

theorem mixer_eq (h : TableReacts table s m l g f u) : u.mixer = m.mixer := by
  have labelled : ChangesOnly [.path, .label, .report, .fault] m l := h.labelled ▸ labelReaction_changes ..
  have governed : ChangesOnly [.report, .governor] l g := h.governed ▸ governorReaction_changes ..
  have reported : ChangesOnly [.path, .report] g f := h.reported ▸ reportReaction_changes ..
  rw [h.changes.mixer, reported.mixer, governed.mixer, labelled.mixer]

theorem mixerQueue_eq (h : TableReacts table s m l g f u) :
    u.path.queues[mixerQueue] = m.path.queues[mixerQueue] :=
  (((h.labelPath.trans h.governorPath).trans h.reportPath).trans h.fault.path).queues mixerQueue (by decide)

/-- The mixer keeps its queue, or drops what is not presented (R100). -/
theorem mixer (h : TableReacts table s m l g f u) (running : s.mixer.stopped = false) :
    (u.path.queues[mixerQueue]).waiting = (s.path.queues[mixerQueue]).waiting ∧
    (u.ownedWindow .busOut ≠ none →
      u.mixer = s.mixer ∧ u.path.queues[mixerQueue] = s.path.queues[mixerQueue]) ∧
    (u.ownedWindow .busOut = none → (u.path.queues[mixerQueue]).later = [] ∧
      u.mixer = { s.mixer with
        busQueue := (s.mixer.busQueue.map fun e => { e with total := e.presented }).filter fun e =>
          decide (e.completed < e.presented) }) := by
  rw [h.mixer_eq, h.mixerQueue_eq, h.mixed, ← h.path.ownedWindow .busOut |>.symm]
  by_cases gone : (withTable table s).ownedWindow .busOut = none
  · obtain ⟨queue, mixer⟩ := mixerReaction_dropped (s := withTable table s) running gone
    rw [queue, mixer]
    exact ⟨rfl, fun there => absurd gone there, fun _ => ⟨rfl, rfl⟩⟩
  · rw [mixerReaction_of_window (Option.isSome_iff_ne_none.mpr gone)]
    exact ⟨rfl, fun _ => ⟨rfl, rfl⟩, fun none' => absurd none' gone⟩

/-- The report unit's counts are 0 for a window of another place, and its writes issued are stale (R34). -/
theorem report (h : TableReacts table s m l g f u) (running : s.report.stopped = false) :
    u.report.post = s.report.post ∧ u.report.inbox = s.report.inbox ∧
    (placeOf (s.ownedWindow .report) = placeOf (u.ownedWindow .report) →
      u.report.written = s.report.written ∧ u.report.consumed = s.report.consumed ∧
      u.report.slot = s.report.slot) ∧
    (placeOf (s.ownedWindow .report) ≠ placeOf (u.ownedWindow .report) →
      u.report.written = 0 ∧ u.report.consumed = 0 ∧ u.report.slot = 0 ∧
      ∀ (i : Fin 32) (j : Issued), s.path.pool[i] = some j → j.purpose.isReportPost = true →
        u.path.pool[i] = some { j with stale := true }) := by
  have mixed : m.report = s.report := h.mixed ▸ (mixerReaction_changes (withTable table s)).report
  have labelled : l.report = { s.report with queue := l.report.queue } := by
    have := labelReaction_report s m
    rwa [← h.labelled, mixed] at this
  have governed : g.report = { s.report with queue := g.report.queue } := by
    have offers : OffersOnly l g := by
      rw [h.governed, governorReaction]
      split
      · exact .of_report rfl
      · exact (foldl_streamReacts s _ (List.nodup_finRange 4) l h.normal).1
    rw [offers.report, labelled]
  have going : g.report.stopped = false := by
    rw [governed]
    exact running
  have last := reportReaction_report s g
  rw [← h.reported, h.window_governor] at last
  have own := h.fault.offers.report
  refine ⟨?post, ?inbox, fun same => ?_, fun moved => ?_⟩
  case post | inbox =>
    rw [own, last]
    split <;> (rw [governed])
  · rw [if_pos (.inr same), governed] at last
    rw [own, last]
    exact ⟨rfl, rfl, rfl⟩
  · rw [if_neg (by simp [going, moved])] at last
    refine ⟨by rw [own, last], by rw [own, last], by rw [own, last], fun i j held issued => ?_⟩
    obtain ⟨late, there, -⟩ := ((h.mixerPath.trans h.labelPath).trans h.governorPath).pool i j held
    have stale := reportReaction_stale (old := s) going (by rwa [h.window_governor]) there issued
    rw [← h.reported] at stale
    exact h.fault.path.stays_stale stale

/-- The label unit's counts, its writes and its records for a window of another place (R125, log 35). -/
theorem label (h : TableReacts table s m l g f u) (running : s.label.stopped = false) :
    (placeOf (s.ownedWindow .label) = placeOf (u.ownedWindow .label) → u.label = s.label ∧
      u.path.queues[labelQueue] = s.path.queues[labelQueue]) ∧
    (placeOf (s.ownedWindow .label) ≠ placeOf (u.ownedWindow .label) →
      u.label.written = 0 ∧ u.label.consumed = 0 ∧ u.label.slot = 0 ∧
      u.label.applied = s.label.applied ∧ u.label.staged = s.label.staged ∧
      (∀ (i : Fin 32) (j : Issued), s.path.pool[i] = some j → j.purpose.isLabelWrite = true →
        u.path.pool[i] = some { j with stale := true }) ∧
      (∀ w, (s.path.queues[labelQueue]).waiting = some w →
        (u.path.queues[labelQueue]).waiting = some { w with stale := true }) ∧
      ∀ (j : Fin 32) (c : Clip) (x : Closing), j ∈ s.label.order → s.label.clips[j] = some c →
        c.closing = some x →
        (u.ownedWindow .label = none → x.hold = 0 → x.ringDone = false →
          s.label.inFlight ≠ some (some j) →
          (x.uplinkDone = true → u.label.clips[j] = none ∧ j ∉ u.label.order) ∧
          ∀ c', u.label.clips[j] = some c' → ∃ x', c'.closing = some x' ∧ x'.ringDone = true) ∧
        (u.ownedWindow .label ≠ none ∨ x.hold ≠ 0 ∨ s.label.inFlight = some (some j) →
          ∀ c' x', u.label.clips[j] = some c' → c'.closing = some x' → x'.ringDone = x.ringDone)) := by
  have mixed : m.label = s.label := h.mixed ▸ (mixerReaction_changes (withTable table s)).label
  have governed : ChangesOnly [.report, .governor] l g := h.governed ▸ governorReaction_changes ..
  have reported : ChangesOnly [.path, .report] g f := h.reported ▸ reportReaction_changes ..
  have unit : u.label = l.label := by rw [h.changes.label, reported.label, governed.label]
  have after := (h.governorPath.trans h.reportPath).trans h.fault.path
  have queue : u.path.queues[labelQueue] = l.path.queues[labelQueue] := after.queues labelQueue (by decide)
  have before : m.path.queues[labelQueue] = s.path.queues[labelQueue] := h.mixerPath.queues labelQueue (by decide)
  have going : m.label.stopped = false := by rw [mixed, running]
  have reaction : l = if placeOf (s.ownedWindow .label) = placeOf (u.ownedWindow .label) then m
      else labelWindowChanged m := by
    rw [h.labelled, labelReaction, if_neg (by simp [going]), h.window_mixer]
  rw [unit, queue]
  refine ⟨fun same => ?_, fun moved => ?_⟩
  · rw [if_pos same] at reaction
    rw [reaction]
    exact ⟨mixed, before⟩
  · rw [if_neg moved] at reaction
    obtain ⟨written, consumed, slot, applied, staged⟩ := labelWindowChanged_unit m
    rw [← reaction] at written consumed slot applied staged
    refine ⟨written, consumed, slot, by rw [applied, mixed], by rw [staged, mixed], fun i j held issued => ?_,
      fun w waits => ?_, fun j c x mem held closed => ⟨fun gone hold owed landed => ?_, fun stays => ?_⟩⟩
    · obtain ⟨late, there, -⟩ := h.mixerPath.pool i j held
      have stale := labelWindowChanged_stale (s := m) there issued
      rw [← reaction] at stale
      exact after.stays_stale stale
    · have stale := labelWindowChanged_waiting (s := m) (by rw [before]; exact waits)
      rwa [← reaction] at stale
    · rw [← h.window_mixer] at gone
      rw [← mixed] at mem held landed
      rw [reaction]
      exact labelWindowChanged_done going gone mem held closed hold owed landed
    · rw [← h.window_mixer] at stays
      rw [← mixed] at held stays
      rw [reaction]
      exact labelWindowChanged_held held closed stays

/-- A stream keeps everything, or is flushed with its event when its window had a place it has no more (R147). -/
theorem stream (h : TableReacts table s m l g f u) (running : s.governor.stopped = false) (n : Fin 4) :
    (¬ windowMoved (s.codedWindow n) (u.codedWindow n) → u.stream n = s.stream n) ∧
    (windowMoved (s.codedWindow n) (u.codedWindow n) → u.stream n = (s.stream n).flush ∧ FlushTold n u) := by
  have mixed : m.governor = s.governor := h.mixed ▸ (mixerReaction_changes (withTable table s)).governor
  have labelled : l.governor = m.governor := h.labelled ▸ (labelReaction_changes s m).governor
  have reported : ChangesOnly [.path, .report] g f := h.reported ▸ reportReaction_changes ..
  have last : u.stream n = g.stream n := by rw [State.stream, State.stream, h.changes.governor, reported.governor]
  have first : l.stream n = s.stream n := by rw [State.stream, State.stream, labelled, mixed]
  have window : l.codedWindow n = u.codedWindow n :=
    ((h.labelPath.codedWindow n).trans (h.mixerPath.codedWindow n)).trans (h.path.codedWindow n).symm
  have reaction : g = (List.finRange 4).foldl
      (fun s' n => streamWindowChanged n (s.codedWindow n) (s'.codedWindow n) s') l := by
    rw [h.governed, governorReaction, if_neg (by rw [labelled, mixed, running]; decide)]
  obtain ⟨-, -, -, each⟩ := foldl_streamReacts s _ (List.nodup_finRange 4) l h.normal
  have own := each n (List.mem_finRange n)
  rw [← reaction, window, first, ← last] at own
  refine ⟨own.1, fun moved => ⟨(own.2 moved).1, h.fault.offers.told n ?_⟩⟩
  have told := (own.2 moved).2
  have queue := reportReaction_offersOnly_queue s g
  rw [FlushTold, ← queue, ← h.reported] at told
  exact told

theorem fault_before (h : TableReacts table s m l g f u) :
    f.fault = { s.fault with classes := f.fault.classes } := by
  have mixed : m.fault = s.fault := h.mixed ▸ (mixerReaction_changes (withTable table s)).fault
  have labelled := labelReaction_fault s m
  rw [← h.labelled, mixed] at labelled
  have governed : ChangesOnly [.report, .governor] l g := h.governed ▸ governorReaction_changes ..
  have reported : ChangesOnly [.path, .report] g f := h.reported ▸ reportReaction_changes ..
  rw [reported.fault, governed.fault]
  exact labelled

theorem faultQueue_before (h : TableReacts table s m l g f u) :
    f.path.queues[faultQueue] = s.path.queues[faultQueue] :=
  (((h.mixerPath.trans h.labelPath).trans h.governorPath).trans h.reportPath).queues faultQueue (by decide)

/-- The measurement goes with its window; with another one its block writes not presented take it (R211, log 21). -/
theorem measurement (h : TableReacts table s m l g f u) :
    u.fault.totals = s.fault.totals ∧ u.fault.number = s.fault.number ∧
    u.fault.buffer = s.fault.buffer ∧ u.fault.interval = s.fault.interval ∧
    (u.path.queues[faultQueue]).waiting = (s.path.queues[faultQueue]).waiting ∧
    (let kept := u.fault.state = s.fault.state ∧ u.fault.frames = s.fault.frames ∧
        u.fault.stagedInterval = s.fault.stagedInterval ∧ u.fault.writes = s.fault.writes;
      (placeOf (s.ownedWindow .meas) = placeOf (u.ownedWindow .meas) →
        kept ∧ (u.path.queues[faultQueue]).later = (s.path.queues[faultQueue]).later) ∧
      (placeOf (s.ownedWindow .meas) ≠ placeOf (u.ownedWindow .meas) → u.ownedWindow .meas ≠ none →
        kept ∧ (u.path.queues[faultQueue]).later =
          (s.path.queues[faultQueue]).later.map Made.reAimed)) ∧
    (s.ownedWindow .meas ≠ none → u.ownedWindow .meas = none → u.fault.state = .inactive ∧
      u.fault.frames = 0 ∧ u.fault.stagedInterval = none ∧
      (u.path.queues[faultQueue]).later = []) := by
  have before := h.fault_before
  have queue := h.faultQueue_before
  have window := h.window_report .meas
  obtain ⟨-, -, waiting, totals, number, buffer, interval, same, moved, gone⟩ := h.fault
  rw [window] at same moved gone
  rw [queue] at waiting moved
  refine ⟨totals.trans (by rw [before]), number.trans (by rw [before]), buffer.trans (by rw [before]),
    interval.trans (by rw [before]), waiting, ⟨fun stays => ?_, fun moves there => ?_⟩, fun had none' => ?_⟩
  · rw [same stays, before, queue]
    exact ⟨⟨rfl, rfl, rfl, rfl⟩, rfl⟩
  · obtain ⟨fault, later⟩ := moved moves there
    rw [fault, before, later]
    exact ⟨⟨rfl, rfl, rfl, rfl⟩, rfl⟩
  · obtain ⟨fault, later⟩ := gone (by simp [none', placeOf, had]) none'
    rw [fault, later]
    exact ⟨rfl, rfl, rfl, rfl⟩

end TableReacts

/-! ## The reads (R11, log 15) -/

/-- A table read that returns notes its beats; the last one decides. -/
theorem tableReturned_eq {i : Issued} {r : Response} {index : Nat} {g : Gather}
    (purpose : i.purpose = .tableRead index) (path : s.path.stopped = false) (running : s.command.stopped = false)
    (gather : s.command.gather = some g) :
    tableReturned i r s =
      if g.returned.length + 1 < g.total then
        { s with command := { s.command with gather := some (g.note index r) } }
      else if (g.note index r).failed then complete .invalid 0xFFFE s
      else tableGathered none (g.note index r).bytes s := by
  have length : (g.note index r).returned.length = g.returned.length + 1 := by
    rw [Gather.note, List.length_append]
    rfl
  have total : (g.note index r).total = g.total := rfl
  simp only [tableReturned, purpose, path, gathered, running, gather, length, total, tableGathered,
    Bool.false_eq_true, if_false]

end Sys2Proof.Machine

open Sys2Proof Sys2Proof.Machine

/-- Settles O26: the last read decides, and each owner's clause is what its reaction leaves. -/
theorem windowTableIsAppliedOrRefused : Obligations.WindowTableIsAppliedOrRefused := by
  intro r k i index g s answers purpose running path gather freed answered g' bytes table
  have run := internalReturn_of_answers (wanted := Purpose.isTableRead) (taken := tableReturned) answers
    (by rw [purpose]; rfl)
  have command : answered.command = s.command := by
    unfold answered
    split <;> rfl
  have control : answered.controlPage = s.controlPage := by
    unfold answered
    split <;> rfl
  have open' : answered.path.stopped = false := by
    unfold answered
    split <;> exact path
  have returned : exec (.windowTableReadReturn r) s = .next (if g.returned.length + 1 < g.total then
      { answered with command := { s.command with gather := some g' } }
    else if g'.failed then complete .invalid 0xFFFE answered
    else tableGathered none bytes answered) := by
    refine run.trans (congrArg _ ?_)
    rw [← command]
    exact tableReturned_eq (s := answered) purpose open' (by rw [command, running]) (by rw [command, gather])
  refine ⟨fun more => returned.trans (congrArg _ (if_pos more)), fun last => ?_⟩
  rw [if_neg (by omega)] at returned
  refine ⟨fun failed => by rw [returned, if_pos failed], fun sound e bad => ?refused, fun sound good => ?applied⟩
  case refused =>
    rw [returned, if_neg (by simp [sound]), tableGathered, control, bad]
  case applied =>
    have ok : answered = freed := by
      have good : r.ok = true := by simpa using (Bool.or_eq_false_iff.mp sound).2
      exact if_pos good
    have normal : s.isNormal = true := answers.2.2.2.1
    obtain ⟨m, l, h, f, reacts⟩ := applyTable_reacts (s := freed) table normal
    have others := reacts.others
    have pool (j : Fin 32) (e : Issued) (held : s.path.pool[j] = some e) (other : e.purpose ≠ i.purpose) :
        freed.path.pool[j] = some e := by
      refine (getElem_set_fin s.path.pool k j none).trans ?_
      rw [if_neg, held]
      rintro rfl
      rw [(heldBy_eq answers.2.1).2] at held
      cases held
      exact other rfl
    refine ⟨applyTable table freed, ?_, reacts.path.windows, reacts.path.parityBad, others.timing, others.command,
      others.lines, reacts.path.forward, reacts.path.tags, reacts.path.intercepted, reacts.mixer, ?report, ?label,
      ?streams, ?fault⟩
    · rw [returned, if_neg (by simp [sound]), tableGathered, control, good, ok]
    case report =>
      intro going
      obtain ⟨post, inbox, same, moved⟩ := reacts.report going
      refine ⟨post, inbox, same, fun moves => ?_⟩
      obtain ⟨written, consumed, slot, stale⟩ := moved moves
      refine ⟨written, consumed, slot, fun j e again held own => stale j e (pool j e held ?_) (by rw [own]; rfl)⟩
      rw [own, purpose]
      nofun
    case label =>
      intro going
      obtain ⟨same, moved⟩ := reacts.label going
      refine ⟨same, fun moves => ?_⟩
      obtain ⟨written, consumed, slot, applied, staged, stale, waiting, records⟩ := moved moves
      refine ⟨written, consumed, slot, applied, staged,
        fun j e again held own => stale j e (pool j e held ?_) (by rw [own]; rfl), waiting, records⟩
      rw [own, purpose]
      nofun
    case streams =>
      intro going n x owed changed
      obtain ⟨kept, flushed⟩ := reacts.stream going n
      refine ⟨kept, fun moved => ?_⟩
      obtain ⟨empty, told⟩ := flushed moved
      exact ⟨empty.trans (Stream.flush_eq x), told⟩
    case fault =>
      obtain ⟨totals, number, buffer, interval, waiting, ⟨same, moved⟩, gone⟩ := reacts.measurement
      refine ⟨totals, number, buffer, interval, waiting, ⟨same, fun moves there => ?_⟩, gone⟩
      obtain ⟨kept, later⟩ := moved moves there
      refine ⟨kept, later.trans (List.map_congr_left fun w _ => ?_)⟩
      unfold Made.reAimed
      cases w.purpose <;> rfl

end

section
/-! SUPPORT. The search for the sync word, RETURN frames, and a receiver's events (R82, R188-R193). -/

set_option Elab.async false

namespace Sys2Proof.Machine

variable {s t u : State}

/-! ## The search (R188) -/

theorem syncBits_eq : syncBits = [true, false, true, true, false, true, false, true,
    false, false, true, false, true, true, true, false] := by
  decide

theorem take_sync_length {bits : List Bool} (h : bits.take 16 = syncBits) : 16 ≤ bits.length := by
  have length := congrArg List.length h
  rw [List.length_take, syncBits_eq] at length
  simp only [List.length_cons, List.length_nil] at length
  omega

theorem searchSync_found {bits : List Bool} {p : Nat} (here : (bits.drop p).take 16 = syncBits)
    (first : ∀ q, q < p → (bits.drop q).take 16 ≠ syncBits) : searchSync bits = (true, bits.drop p) := by
  induction bits generalizing p with
  | nil =>
    have := take_sync_length here
    simp at this
  | cons b rest ih =>
    rw [searchSync]
    cases p with
    | zero => exact if_pos here
    | succ p =>
      have long := take_sync_length here
      rw [List.length_drop, List.length_cons] at long
      have away : (b :: rest).take 16 ≠ syncBits := first 0 (Nat.succ_pos p)
      rw [if_neg away, if_neg (by omega)]
      exact ih here fun q less => first (q + 1) (Nat.succ_lt_succ less)

theorem searchSync_missed {bits : List Bool} (none' : ∀ p, (bits.drop p).take 16 ≠ syncBits) :
    searchSync bits = (false, bits.drop (bits.length - 15)) := by
  induction bits with
  | nil => rfl
  | cons b rest ih =>
    have away : (b :: rest).take 16 ≠ syncBits := none' 0
    rw [searchSync, if_neg away, List.length_cons]
    split
    next short => rw [Nat.sub_eq_zero_of_le (by omega), List.drop_zero]
    next long =>
      rw [ih fun p => none' (p + 1), show rest.length + 1 - 15 = rest.length - 15 + 1 by omega, List.drop_succ_cons]

theorem Receiver.search_eq (r : Receiver) (bits : List Bool) :
    r.search bits = { r with inFrame := (searchSync bits).1, bits := (searchSync bits).2 } := rfl

/-! ## RETURN frames (R82) -/

theorem MixFrame.addSample_arrivals (f : MixFrame) (source : Fin 64) (i : Fin 48) (x : Sample) :
    (f.addSample source i x).arrivals[source] = f.arrivals[source] ||| (1#48 <<< i.val) := by
  have kept := (f.addProducts_others i x (f.routes.filter fun r => r.record.source == source)).2
  unfold MixFrame.addSample
  refine (getElem_set_fin _ source source _).trans ((if_pos rfl).trans ?_)
  exact congrArg (fun v => v[source] ||| (1#48 <<< i.val)) kept

/-- Samples of NEXT taken one by one, each slot of the source still open. -/
theorem foldl_takeSample_next {source : Fin 64} (sample : Fin 48 → Sample) (is : List (Fin 48)) (distinct : is.Nodup)
    (m : Mixer) (fresh : ∀ i ∈ is, (m.next.arrivals[source]).getLsbD i.val = false) (some' : is ≠ []) :
    is.foldl (fun m i => m.takeSample source ((m.frame.toNat + 1) % 8) i (sample i)) m =
      { m with
        next := is.foldl (fun f i => f.addSample source i (sample i)) m.next
        sources := m.sources.set source { m.sources[source] with active := true, idleRun := 0 } } := by
  induction is generalizing m with
  | nil => exact absurd rfl some'
  | cons i is ih =>
    obtain ⟨out, distinct'⟩ := List.nodup_cons.mp distinct
    have one : m.takeSample source ((m.frame.toNat + 1) % 8) i (sample i) =
        { m with
          next := m.next.addSample source i (sample i)
          sources := m.sources.set source { m.sources[source] with active := true, idleRun := 0 } } := by
      have place : slotPlace m.frame ((m.frame.toNat + 1) % 8) = .next := slotPlace_cases.2.2.2 rfl
      rw [Mixer.takeSample, place]
      dsimp only
      rw [Mixer.sampleIn]
      exact if_neg (by rw [show m.openFrame true = m.next from rfl, fresh i List.mem_cons_self]; decide)
    rw [List.foldl_cons, List.foldl_cons, one]
    rcases is with _ | ⟨k, is⟩
    · rfl
    · rw [ih distinct' _ (fun j mem => ?_) (by simp)]
      · dsimp only
        rw [getElem_set_fin, if_pos rfl]
        congr 1
        exact Vector.set_set ..
      · dsimp only
        rw [MixFrame.addSample_arrivals, BitVec.getLsbD_or, fresh j (List.mem_cons_of_mem _ mem), Bool.false_or,
          BitVec.getLsbD_shiftLeft]
        have other : i.val ≠ j.val := fun same => out (Fin.ext same ▸ mem)
        by_cases below : j.val < i.val
        · simp [below]
        · have bit' : j.val - i.val ≠ 0 := by omega
          simp [below, bit']

theorem Mixer.takeChannel_of_fresh {frame : List Byte} {l : LineId} {m : Mixer} {c : Fin 2}
    (fresh : m.next.arrivals[returnSource l c] = 0) : m.takeChannel frame l c =
      (List.finRange 48).foldl (fun m i =>
        m.takeSample (returnSource l c) ((m.frame.toNat + 1) % 8) i (returnSample frame c i)) m := by
  rw [foldl_takeSample_next (returnSample frame c) _ (List.nodup_finRange 48) m
    (fun i _ => by rw [fresh, BitVec.ofNat_eq_ofNat, BitVec.getLsbD_zero]) (by simp), Mixer.takeChannel]
  exact if_pos fresh

/-! ## A receiver changed, and the events beside it (R193, R208) -/

theorem measureOffer_setLine (k l : LineId) (f : Totals → Totals) (x : Line) (s : State) :
    measureOffer k f (s.setLine l x) = (measureOffer k f s).setLine l x := by
  unfold measureOffer
  have same : ((s.setLine l x).isNormal && (s.setLine l x).fault.state == .active) =
    (s.isNormal && s.fault.state == .active) := rfl
  rw [same]
  split <;> rfl

theorem giveLos_setLine (k l : LineId) (d : Bool) (x : Line) (s : State) :
    giveLos k d (s.setLine l x) = (giveLos k d s).setLine l x := by
  unfold giveLos
  have same : (s.setLine l x).isNormal = s.isNormal := rfl
  rw [same]
  split <;> rfl

theorem signalEvent_of_same {l : LineId} {before : Receiver} {x : Line} (los : x.receiver.los = before.los)
    (sync : x.receiver.sync = before.sync) : signalEvent l before (s.setLine l x) = s.setLine l x := by
  rw [signalEvent, State.setLine_line_same]
  exact if_pos ⟨los, sync⟩

theorem signalEvent_of_changed {l : LineId} {before : Receiver} {x : Line}
    (changed : ¬ (x.receiver.los = before.los ∧ x.receiver.sync = before.sync)) :
    signalEvent l before (s.setLine l x) =
      (offer l.val (.lineSignal x.receiver.los x.receiver.sync) s).setLine l x := by
  rw [signalEvent, State.setLine_line_same]
  rw [if_neg changed, offer_setLine]

/-! ## Delivery (R190-R192) -/

theorem ignoreFrame_setLine (l : LineId) (x : Line) (s : State) : ignoreFrame l (s.setLine l x) =
    s.setLine l { x with receiver := { x.receiver with ignored := x.receiver.ignored + 1 } } := by
  rw [ignoreFrame, State.setReceiver, State.setLine_line_same, State.setLine_setLine]

theorem deliverFrame_of_return {frame : List Byte} {l : LineId} {x : Line}
    (h : frameKind frame = 8 ∧ x.applied.returnEnabled = true ∧ framePayloadLength frame = 288) :
    deliverFrame l frame (s.setLine l x) = (deliverReturn frame l s).setLine l x := by
  obtain ⟨kind, enabled, length⟩ := h
  rw [deliverFrame, State.setLine_line_same, kind]
  change (if x.applied.returnEnabled && framePayloadLength frame == 288 then _ else _) = _
  rw [if_pos (by simp [enabled, length]), deliverReturn, deliverReturn]
  have same : (s.setLine l x).mixer = s.mixer := rfl
  rw [same]
  split <;> rfl

theorem deliverFrame_of_key {frame : List Byte} {l : LineId} {x : Line} {n : Fin 4} (kind : frameKind frame = 9)
    (live : x.applied.liveStream = some n) :
    deliverFrame l frame (s.setLine l x) = (setKeyRequest n s).setLine l x := by
  rw [deliverFrame, State.setLine_line_same, kind, live]
  change setKeyRequest n (s.setLine l x) = _
  rw [setKeyRequest, setKeyRequest]
  have same : (s.setLine l x).governor = s.governor := rfl
  rw [same]
  split <;> rfl

theorem deliverFrame_of_other {frame : List Byte} {l : LineId} {x : Line}
    (notReturn : ¬ (frameKind frame = 8 ∧ x.applied.returnEnabled = true ∧ framePayloadLength frame = 288))
    (notKey : frameKind frame ≠ 9 ∨ x.applied.liveStream = none) :
    deliverFrame l frame (s.setLine l x) =
      s.setLine l { x with receiver := { x.receiver with ignored := x.receiver.ignored + 1 } } := by
  rw [← ignoreFrame_setLine, deliverFrame, State.setLine_line_same]
  split
  next kind => exact if_neg (by simpa [kind] using notReturn)
  next kind live => simp [kind, live] at notKey
  next => rfl

end Sys2Proof.Machine

open Sys2Proof Sys2Proof.Machine

/-- Settles O45: the receiver is set last, beside the events, the offers and what the delivery gives. -/
theorem framesAreJudged : Obligations.FramesAreJudged := by
  intro l us s₀ s struck running inFrame taken x r frame good sync tail totals counted received follow channel delivered
  have sync' : sync = syncBits := syncBits_eq.symm
  have totalled (f : Totals → Totals) : measureOffer l f s = totals f s := by
    simp only [measureOffer, totals, Bool.and_eq_true, beq_iff_eq]
  have candidate (hunt : r.sync = .hunt) : exec (.candidateFrame l us) s₀ = .next (judgeCandidate l s) := by
    have run : exec (.candidateFrame l us) s₀ = execCandidateFrame l us s₀ := rfl
    rw [run, execCandidateFrame, ← struck]
    exact if_pos ⟨running, hunt, by simp [Receiver.frameTaken, inFrame, Config.frameBits, taken]⟩
  have locked (lock : r.sync = .locked) : exec (.lockedFrame l us) s₀ = .next (judgeLocked l s) := by
    have run : exec (.lockedFrame l us) s₀ = execLockedFrame l us s₀ := rfl
    rw [run, execLockedFrame, ← struck]
    exact if_pos ⟨running, lock, by simp [Receiver.frameTaken, inFrame, Config.frameBits, taken]⟩
  have total (f : Totals → Totals) : ChangesOnly [.fault] s (totals f s) := totalled f ▸ measureOffer_changes l f s
  have lineKept (f : Totals → Totals) : (totals f s).line l = x := congrArg (·[l]) (total f).lines
  have counts : ChangesOnly [.fault] s (counted s) := total fun y => { y with goodFrames := y.goodFrames + 1 }
  have channels : Mixer.takeChannel frame l = channel := by
    funext m c
    by_cases fresh : m.next.arrivals[returnSource l c] = 0
    · rw [Mixer.takeChannel_of_fresh fresh]
      exact (if_pos fresh).symm
    · rw [Mixer.takeChannel]
      exact (if_neg fresh).trans (if_neg fresh).symm
  have given (r' : Receiver) (u : State) (mixer : u.mixer = s.mixer) (governor : u.governor = s.governor) :
      deliverFrame l frame (u.setLine l { x with receiver := r' }) = delivered r' u := by
    unfold delivered
    split
    next isReturn =>
      rw [deliverFrame_of_return (x := { x with receiver := r' }) isReturn, deliverReturn, mixer, channels]
      rfl
    next notReturn =>
      split
      next n isKey live =>
        rw [deliverFrame_of_key (x := { x with receiver := r' }) (beq_iff_eq.mp isKey) live, setKeyRequest,
          State.stream, governor]
        rfl
      next _ _ notKey =>
        refine deliverFrame_of_other (x := { x with receiver := r' }) notReturn ?_
        by_cases kind : frameKind frame = 9
        · refine .inr (Option.eq_none_iff_forall_ne_some.mpr fun n live => ?_)
          exact notKey n (beq_iff_eq.mpr kind) live
        · exact .inl kind
  have resumed (r' : Receiver) : ∃ found bits, r'.search tail = { r' with inFrame := found, bits := bits } ∧
      (∀ p, (tail.drop p).take 16 = sync → (∀ q, q < p → (tail.drop q).take 16 ≠ sync) →
        found = true ∧ bits = tail.drop p) ∧
      ((∀ p, (tail.drop p).take 16 ≠ sync) → found = false ∧ bits = tail.drop (tail.length - 15)) := by
    refine ⟨_, _, r'.search_eq tail, fun p here first => ?_, fun none' => ?_⟩
    · rw [sync'] at here first
      rw [searchSync_found here first]
      exact ⟨rfl, rfl⟩
    · rw [sync'] at none'
      rw [searchSync_missed none']
      exact ⟨rfl, rfl⟩
  have setReceiver (r' : Receiver) (f : Totals → Totals) :
      measureOffer l f (s.setReceiver l r') = (totals f s).setLine l { x with receiver := r' } := by
    rw [State.setReceiver, measureOffer_setLine, totalled]
  refine ⟨fun hunt => ⟨fun isGood fresh => (candidate hunt).trans (congrArg _ ?first), fun isGood second =>
    (candidate hunt).trans (congrArg _ ?second), fun bad => ?missed⟩,
    fun lock => ⟨fun isGood => (locked lock).trans (congrArg _ ?again), fun bad => ⟨fun few => (locked lock).trans
      (congrArg _ ?few), fun many => ?lost⟩⟩⟩
  case first =>
    have judged : judgeCandidate l s = signalEvent l r (goodOffer l
        (if r.los then giveLos l false (s.setReceiver l { follow with heldGood := true, los := false })
        else s.setReceiver l { follow with heldGood := true, los := false })) := by
      rw [judgeCandidate]
      exact (if_pos isGood).trans (if_neg (by rw [Bool.not_eq_true]; exact fresh))
    rw [judged]
    rcases los : r.los with _ | _
    · rw [if_neg Bool.false_ne_true, if_neg Bool.false_ne_true, goodOffer, setReceiver]
      exact signalEvent_of_same los.symm rfl
    · have signalled (u : State) : signalEvent l r
          (u.setLine l { x with receiver := { follow with heldGood := true, los := false } }) =
          received { follow with heldGood := true, los := false } (offer l.val (.lineSignal false .hunt) u) := by
        rw [signalEvent_of_changed fun ⟨same, _⟩ => Bool.false_ne_true (same.trans los), ← hunt]
      rw [if_pos rfl, if_pos rfl, State.setReceiver, giveLos_setLine, goodOffer, measureOffer_setLine, signalled]
      refine congrArg (fun u => received _ (offer l.val _ u)) ?_
      rcases normal : s.isNormal with _ | _
      · rw [giveLos, if_neg (by simp [normal]), if_neg Bool.false_ne_true, measureOffer, if_neg (by simp [normal])]
      · rw [giveLos_of_normal _ _ normal, if_pos rfl]
        unfold counted totals
        rw [measureOffer_of_normal (s := { s with fault := { s.fault with los := s.fault.los.set l false } }) _ _ normal]
        simp only [normal, true_and]
  case second =>
    have judged : judgeCandidate l s = deliverFrame l frame (signalEvent l r (goodOffer l
        (s.setReceiver l { follow with sync := .locked, badFrames := 0, heldGood := false }))) := by
      rw [judgeCandidate]
      exact (if_pos isGood).trans (if_pos second)
    rw [judged, goodOffer, setReceiver, signalEvent_of_changed fun ⟨_, same⟩ => by rw [hunt] at same; cases same]
    refine given _ _ ?_ ?_
    · exact (offer_changes ..).mixer.trans counts.mixer
    · exact (offer_changes ..).governor.trans counts.governor
  case missed =>
    obtain ⟨found, bits, searched, which⟩ := resumed { r with heldGood := false }
    refine ⟨found, bits, (candidate hunt).trans (congrArg _ ?_), which⟩
    rw [judgeCandidate]
    refine (if_neg bad).trans ?_
    exact congrArg (State.setReceiver s l) searched
  case again =>
    have judged : judgeLocked l s =
        deliverFrame l frame (goodOffer l (s.setReceiver l { follow with badFrames := 0 })) := by
      rw [judgeLocked]
      exact if_pos isGood
    rw [judged, goodOffer, setReceiver]
    exact given _ _ counts.mixer counts.governor
  case few =>
    rw [judgeLocked]
    refine (if_neg bad).trans ((if_pos (by exact Nat.succ_lt_succ few)).trans ?_)
    rw [totalled, State.setReceiver, lineKept fun t => { t with crcErrors := t.crcErrors + 1 }]
    rfl
  case lost =>
    obtain ⟨found, bits, searched, which⟩ := resumed { r with sync := .hunt, heldGood := false, badFrames := 0 }
    refine ⟨found, bits, (locked lock).trans (congrArg _ ?_), which⟩
    rw [judgeLocked]
    refine (if_neg bad).trans ((if_neg (Nat.not_lt.mpr (Nat.succ_le_succ many))).trans ?_)
    rw [totalled, State.setReceiver, lineKept fun t => { t with crcErrors := t.crcErrors + 1 }]
    refine (congrArg (fun r' => signalEvent l r (State.setLine _ l { x with receiver := r' })) searched).trans ?_
    exact signalEvent_of_changed fun ⟨_, same⟩ => by rw [lock] at same; cases same

end

section
/-! SUPPORT. The output of a line, one symbol sent and one received (R156, R181, R182, R186-R188, R194, R195). -/

set_option Elab.async false

namespace Sys2Proof.Machine

variable {s t u : State}

/-! ## The output, case by case (R156) -/

theorem Line.output_of_off {x : Line} (h : x.applied.rate = .off) : x.output = .noSignal := if_pos h

theorem Line.output_of_hold {x : Line} (on : x.applied.rate ≠ .off) (h : x.stopped = true) : x.output = .hold := by
  rw [Line.output_of_stopped h, if_neg on]

theorem Line.output_of_frame {x : Line} (on : x.applied.rate ≠ .off) (running : x.stopped = false) (h : x.tx ≠ none) :
    x.output = .frame := by
  rw [Line.output_of_running running, if_neg on, if_pos (Option.isSome_iff_ne_none.mpr h)]

theorem Line.output_of_remote {x : Line} (on : x.applied.rate ≠ .off) (running : x.stopped = false) (h : x.tx = none)
    (remote : x.applied.loopback = .remote) : x.output = .retransmission := by
  rw [Line.output_of_running running, if_neg on, h, if_neg (by simp), if_pos remote]

theorem Line.output_of_function {x : Line} (on : x.applied.rate ≠ .off) (running : x.stopped = false) (h : x.tx = none)
    (own : x.applied.loopback ≠ .remote) : x.output = match x.function with
      | .idle => .noSignal
      | .active => if x.startPending && x.holdBefore then .hold else .noSignal
      | .halting => .noSignal
      | .halted => .hold := by
  rw [Line.output_of_running running, if_neg on, h, if_neg (by simp)]
  exact if_neg own

/-! ## One symbol sent (R181, R182) -/

/-- Symbols wait that are more than Z behind (R182, log 17). -/
theorem Coder.late_iff {code : ZeroRun} {c : Coder} :
    c.late code = true ↔ c.out ≠ [] ∧ code.length < c.pending + c.out.length := by
  simp [Coder.late]

theorem Line.sendSymbol_of_bit {x y : Line} {b : Bool} (next : x.nextBit = some (b, y)) :
    x.sendSymbol = if x.coder.late x.applied.code then x.emitSymbol x.coder
      else y.emitSymbol (y.coder.take y.applied.code b) := by
  rw [Line.sendSymbol, next]

theorem Line.sendSymbol_of_none {x : Line} (next : x.nextBit = none) : x.sendSymbol = x := by
  rw [Line.sendSymbol, next]

theorem Line.emitSymbol_eq (x : Line) (c : Coder) : x.emitSymbol c =
    { x with
      coder := (c.emit x.applied.code).2
      level := (c.emit x.applied.code).1
      looped := if x.applied.loopback = .localLoop ∧ x.stopped = false then x.looped ++ [(c.emit x.applied.code).1]
        else x.looped } := rfl

theorem TxFrame.bitAt_eq (f : TxFrame) (k : Nat) : f.bitAt k = ((lineBits f.bytes)[k]?).getD false := by
  have place := lineBits_getElem? f.bytes (k / 8) (Nat.mod_lt k (by decide : 0 < 8))
  rw [Nat.div_add_mod] at place
  rw [place, TxFrame.bitAt]
  rcases here : f.bytes.drop (k / 8) with _ | ⟨b, rest⟩
  · rw [List.getElem?_eq_none (List.drop_eq_nil_iff.mp here)]
    rfl
  · have head := List.head?_drop (l := f.bytes) (i := k / 8)
    rw [here] at head
    rw [← head]
    rfl

/-! ## Frame sync (R188, R189) -/

/-- Bits searched in two goes: nothing is lost between them. -/
theorem searchSync_append (xs ys : List Bool) : searchSync (xs ++ ys) =
    if (searchSync xs).1 then (true, (searchSync xs).2 ++ ys) else searchSync ((searchSync xs).2 ++ ys) := by
  induction xs with
  | nil => rfl
  | cons b rest ih =>
    by_cases short : (b :: rest).length < 16
    · have missed : searchSync (b :: rest) = (false, b :: rest) := by
        have away : (b :: rest).take 16 ≠ syncBits := fun here => by
          have := take_sync_length here
          omega
        rw [searchSync, if_neg away, if_pos (by rw [List.length_cons] at short; omega)]
      rw [missed, if_neg Bool.false_ne_true]
    · have same : (b :: (rest ++ ys)).take 16 = (b :: rest).take 16 := by
        rw [← List.cons_append, List.take_append_of_le_length (Nat.not_lt.mp short)]
      rw [List.length_cons] at short
      by_cases here : (b :: rest).take 16 = syncBits
      · have found : searchSync (b :: rest) = (true, b :: rest) := if_pos here
        rw [found, if_pos rfl]
        exact if_pos (same.trans here)
      · have on : searchSync (b :: rest) = searchSync rest := by
          rw [searchSync, if_neg here, if_neg (by omega)]
        rw [on, ← ih, List.cons_append, searchSync, same, if_neg here, if_neg (by rw [List.length_append]; omega)]

/-- Where the bits pushed leave frame sync: in the frame, as it was, or by the search of all its bits. -/
def Receiver.pushed (r : Receiver) (bits : List Bool) : Bool × List Bool :=
  if r.inFrame then (true, r.bits ++ bits)
  else if bits = [] then (false, r.bits)
  else searchSync (r.bits ++ bits)

theorem foldl_pushBit (r : Receiver) (bits : List Bool) :
    bits.foldl Receiver.pushBit r = { r with inFrame := (r.pushed bits).1, bits := (r.pushed bits).2 } := by
  induction bits generalizing r with
  | nil =>
    rcases within : r.inFrame with _ | _ <;> simp [Receiver.pushed, within] <;> rw [← within]
  | cons b rest ih =>
    rw [List.foldl_cons, ih, Receiver.pushBit]
    rcases within : r.inFrame with _ | _
    · rw [if_neg Bool.false_ne_true, Receiver.search_eq]
      have first := searchSync_append (r.bits ++ [b]) rest
      have all : r.pushed (b :: rest) = searchSync (r.bits ++ [b] ++ rest) := by
        simp [Receiver.pushed, within]
      rw [all]
      rcases rest with _ | ⟨c, rest⟩
      · rw [List.append_nil]
        generalize searchSync (r.bits ++ [b]) = found
        obtain ⟨found, bits⟩ := found
        cases found <;> simp [Receiver.pushed]
      · rw [first]
        generalize searchSync (r.bits ++ [b]) = found
        obtain ⟨found, bits⟩ := found
        cases found <;> simp [Receiver.pushed]
    · rw [if_pos rfl]
      simp [Receiver.pushed, within]

/-! ## One symbol received (R186, R187, R195) -/

/-- The receiver after one symbol, before frame sync takes the bits decided. -/
theorem Line.receive_eq (y : Line) (symbol : Symbol) :
    let d := y.receiver.decode y.applied.code symbol
    let e := d.decide y.applied.code
    y.receive symbol = { y with
      receiver := e.1.foldl Receiver.pushBit e.2.noteSpaces
      retransmit := if y.output = .retransmission then y.retransmit ++ e.1 else y.retransmit } := by
  intro d e
  have noted : d.noteSpaces.decide y.applied.code = (e.1, e.2.noteSpaces) := by
    unfold Receiver.noteSpaces
    have same : (e.2.spaces = Config.losSpaces ∧ e.2.los = false) = (d.spaces = Config.losSpaces ∧ d.los = false) := rfl
    simp only [same]
    split <;> rfl
  have output : ({ y with receiver := d.noteSpaces } : Line).output = y.output := rfl
  unfold Line.receive Line.decideBits
  dsimp only
  rw [noted, output]

theorem Receiver.noteSpaces_eq (r : Receiver) :
    r.noteSpaces = { r with losDue := if r.spaces = 96 ∧ r.los = false then true else r.losDue } := by
  by_cases due : r.spaces = 96 ∧ r.los = false
  · rw [if_pos due]
    exact if_pos due
  · rw [if_neg due]
    exact if_neg due

/-- What a symbol changes of the receiver before its bits are decided. -/
theorem Receiver.decode_keeps (code : ZeroRun) (r : Receiver) (symbol : Symbol) :
    let d := r.decode code symbol
    d.inFrame = r.inFrame ∧ d.bits = r.bits ∧ d.los = r.los ∧ d.losDue = r.losDue ∧ d.sync = r.sync ∧
      d.heldGood = r.heldGood ∧ d.badFrames = r.badFrames ∧ d.ignored = r.ignored := by
  have all : (r.decode code symbol) = { r with
      lastPositive := (r.decode code symbol).lastPositive, recent := (r.decode code symbol).recent
      undecided := (r.decode code symbol).undecided, spaces := (r.decode code symbol).spaces
      violationsDue := (r.decode code symbol).violationsDue } := by
    cases symbol with
    | space => rfl
    | mark p =>
      unfold Receiver.decode
      dsimp only
      split
      · split <;> rfl
      · rfl
  rw [all]
  exact ⟨rfl, rfl, rfl, rfl, rfl, rfl, rfl, rfl⟩

/-- The symbols before a violation complete a substitution with it (R186). -/
theorem validSubstitution_iff {code : ZeroRun} {before : List Undecided} :
    validSubstitution code before = true ↔ code ≠ .off ∧ before.length = code.length - 1 ∧
      (∀ u, before.head? = some u → u.symbol = .space ∨ u.bit = true) ∧ ∀ u ∈ before.tail, u.symbol = .space := by
  unfold validSubstitution
  rcases before with _ | ⟨first, others⟩
  · have long : code ≠ .off → (0 : Nat) ≠ code.length - 1 := by cases code <;> simp [ZeroRun.length]
    simpa using fun on length => absurd length (long on)
  · simp [ZeroRun.window, and_assoc]

theorem Receiver.decode_space (code : ZeroRun) (r : Receiver) : r.decode code .space =
    { r with
      undecided := r.undecided ++ [{ symbol := .space, bit := false }]
      spaces := min (r.spaces + 1) 96 } := rfl

/-- A mark of the last polarity that completes a substitution makes zeros of it (R186). -/
theorem Receiver.decode_completes {code : ZeroRun} {r : Receiver} {p : Bool} (same : p = r.lastPositive)
    (valid : validSubstitution code (r.before code) = true) : r.decode code (.mark p) =
      { r with
        spaces := 0
        recent := asZeros r.recent
        undecided := asZeros r.undecided ++ [{ symbol := .mark p, bit := false }] } := by
  have valid' : validSubstitution code (({ r with spaces := 0 } : Receiver).before code) = true := valid
  simp only [Receiver.decode, same, if_true, if_pos valid']

/-- Any other mark is a one, and a violation when it repeats the last polarity (R186). -/
theorem Receiver.decode_one {code : ZeroRun} {r : Receiver} {p : Bool}
    (other : ¬ (p = r.lastPositive ∧ validSubstitution code (r.before code) = true)) : r.decode code (.mark p) =
      { r with
        spaces := 0
        lastPositive := p
        undecided := r.undecided ++ [{ symbol := .mark p, bit := true }]
        violationsDue := r.violationsDue + if p = r.lastPositive then 1 else 0 } := by
  by_cases same : p = r.lastPositive
  · have wrong : ¬ validSubstitution code (({ r with spaces := 0 } : Receiver).before code) = true :=
      fun valid => other ⟨same, valid⟩
    simp only [Receiver.decode, same, if_true, if_neg wrong]
  · simp only [Receiver.decode, if_neg same, Nat.add_zero]

theorem Receiver.decode_mark (code : ZeroRun) (r : Receiver) (p : Bool) :
    (r.decode code (.mark p)).spaces = 0 ∧ (r.decode code (.mark p)).lastPositive = p := by
  by_cases completes : p = r.lastPositive ∧ validSubstitution code (r.before code) = true
  · rw [Receiver.decode_completes completes.1 completes.2]
    exact ⟨rfl, completes.1.symm⟩
  · rw [Receiver.decode_one completes]
    exact ⟨rfl, rfl⟩

/-- The receiver once frame sync has the bits decided: only the search and the LOS declaration differ. -/
theorem Line.receive_receiver (y : Line) (symbol : Symbol) :
    let e := (y.receiver.decode y.applied.code symbol).decide y.applied.code
    (y.receive symbol).receiver = { e.2 with
      inFrame := (y.receiver.pushed e.1).1
      bits := (y.receiver.pushed e.1).2
      losDue := if e.2.spaces = 96 ∧ y.receiver.los = false then true else y.receiver.losDue } := by
  intro e
  obtain ⟨inFrame, bits, los, due, -⟩ := Receiver.decode_keeps y.applied.code y.receiver symbol
  have pushed : e.2.noteSpaces.pushed e.1 = y.receiver.pushed e.1 := by
    rw [Receiver.noteSpaces_eq]
    have within : e.2.inFrame = y.receiver.inFrame := inFrame
    have taken : e.2.bits = y.receiver.bits := bits
    unfold Receiver.pushed
    dsimp only
    rw [within, taken]
  have los' : e.2.los = y.receiver.los := los
  have due' : e.2.losDue = y.receiver.losDue := due
  rw [Line.receive_eq]
  dsimp only
  rw [foldl_pushBit, pushed, Receiver.noteSpaces_eq, los', due']

end Sys2Proof.Machine

open Sys2Proof Sys2Proof.Machine

/-- Settles O46: the outputs by R156's table, a bit coded and sent, and a symbol decoded and searched. -/
theorem symbolsAreSentAndReceived : Obligations.SymbolsAreSentAndReceived := by
  refine ⟨fun x => ?outputs, fun l s => ?symbols⟩
  case outputs =>
    refine ⟨Line.output_of_off, fun on => Line.output_of_hold on, fun on running => ⟨Line.output_of_frame on running,
      Line.output_of_remote on running, fun tx own => ?_⟩⟩
    have table := Line.output_of_function on running tx own
    refine ⟨fun function => ?_, fun function starts => ?_, fun function starts => ?_, fun function => ?_,
      fun function => ?_⟩
    all_goals rw [table, function]
    all_goals simp [*]
  case symbols =>
    intro x code late left
    have sent : exec (.symbolSent l) s = .next (s.setLine l x.sendSymbol) := rfl
    have bit (b : Bool) (y : Line) (next : x.nextBit = some (b, y)) (applied : y.applied = x.applied)
        (coder : y.coder = x.coder) (stopped : y.stopped = x.stopped) (looped : y.looped = x.looped) :
        exec (.symbolSent l) s = .next (if late then left x x.coder else left y (x.coder.take code b)) := by
      rw [sent, Line.sendSymbol_of_bit next, apply_ite (State.setLine s l), applied, coder]
      refine congrArg _ (if_congr Coder.late_iff rfl ?_)
      unfold left
      dsimp only
      rw [Line.emitSymbol_eq, applied, stopped, looped]
    refine ⟨fun output => ?_, fun output => ?_, fun f output tx more => ?_, fun output => ⟨fun empty => ?_, fun b rest waits => ?_⟩,
      fun level off => ?off, fun on running => ?on⟩
    · rw [sent, Line.sendSymbol_of_none (by rw [Line.nextBit, output])]
    · rw [bit true x (by rw [Line.nextBit, output]) rfl rfl rfl rfl]
      split <;> rfl
    · have next : x.nextBit = some (f.bitAt f.sent, { x with tx := some { f with sent := f.sent + 1 } }) := by
        rw [Line.nextBit, output, tx]
        exact if_pos more
      rw [bit _ _ next rfl rfl rfl rfl, TxFrame.bitAt_eq]
    · rw [sent, Line.sendSymbol_of_none (by rw [Line.nextBit, output, empty])]
    · exact bit b { x with retransmit := rest } (by rw [Line.nextBit, output, waits]) rfl rfl rfl rfl
    case off =>
      have run : exec (.symbolReceived l level) s = execSymbolReceived l level s := rfl
      rw [run, execSymbolReceived]
      exact if_pos off
    case on =>
      intro received level
      have run : exec (.symbolReceived l level) s = match x.inputSymbol level with
          | some (symbol, x) => .next (s.setLine l (x.receive symbol))
          | none => .next s := by
        have run : exec (.symbolReceived l level) s = execSymbolReceived l level s := rfl
        rw [run, execSymbolReceived]
        exact if_neg (by simp [on, running, x])
      have got (y : Line) (symbol : Symbol) (receiver : y.receiver = x.receiver) (applied : y.applied = x.applied)
          (output : y.output = x.output) (retransmit : y.retransmit = x.retransmit) :
          received y symbol (s.setLine l (y.receive symbol)) := by
        unfold received
        intro d e
        have code' : y.applied.code = code := congrArg LineSettings.code applied
        have decoded : d = x.receiver.decode code symbol := congrArg (Receiver.decode code · symbol) receiver
        have own : (s.setLine l (y.receive symbol)).line l = y.receive symbol := State.setLine_line_same ..
        have after := y.receive_receiver symbol
        have retained : (y.receive symbol).retransmit =
            if x.output = .retransmission then x.retransmit ++ e.1 else x.retransmit := by
          rw [Line.receive_eq, output, retransmit, code']
        dsimp only at after
        rw [code', receiver, ← decoded] at after
        change (y.receive symbol).receiver = { e.2 with
          inFrame := (x.receiver.pushed e.1).1
          bits := (x.receiver.pushed e.1).2
          losDue := if e.2.spaces = 96 ∧ x.receiver.los = false then true else x.receiver.losDue } at after
        obtain ⟨-, -, los, -, sync, held, bad, ignored⟩ := x.receiver.decode_keeps code symbol
        rw [← decoded] at los sync held bad ignored
        have taken : (d.undecided.take (d.undecided.length - (code.length - 1))).length =
            d.undecided.length - (code.length - 1) := by
          rw [List.length_take]
          omega
        have completing (p : Bool) (heard : List Undecided) : heard = x.receiver.recent ++ x.receiver.undecided →
            ((p = x.receiver.lastPositive ∧ code ≠ .off ∧
              (heard.drop (heard.length - (code.length - 1))).length = code.length - 1 ∧
              (∀ u, (heard.drop (heard.length - (code.length - 1))).head? = some u → u.symbol = .space ∨ u.bit = true) ∧
              ∀ u ∈ (heard.drop (heard.length - (code.length - 1))).tail, u.symbol = .space) ↔
            p = x.receiver.lastPositive ∧ validSubstitution code (x.receiver.before code) = true) := by
          rintro rfl
          exact and_congr_right fun _ => validSubstitution_iff.symm
        refine ⟨State.setLine_changes .., setLine_others .., ?lineLeft, ?retransmit, ?los, ?sync, ?receiver, ⟨rfl, ?undecided, rfl⟩,
          ?held, ?bad, ?ignored, ⟨fun space => ?bitOfSpace, fun p mark completes => ?zeros, fun p mark wrong => ?one⟩,
          fun within => ?within, fun searching => ?searching, fun space => ?space, fun p mark => ?mark⟩
        case lineLeft => rw [own, Line.receive_eq]
        case retransmit => rw [own, retained]
        case los =>
          rw [own, after]
          exact los
        case sync =>
          rw [own, after]
          exact sync
        case receiver =>
          dsimp only
          rw [own, after]
        case undecided =>
          rw [taken]
          rfl
        case held =>
          rw [own, after]
          exact held
        case bad =>
          rw [own, after]
          exact bad
        case ignored =>
          rw [own, after]
          exact ignored
        case bitOfSpace =>
          rw [own, after]
          rw [space, Receiver.decode_space] at decoded
          have violations : d.violationsDue = x.receiver.violationsDue := by rw [decoded]
          exact ⟨by rw [decoded], violations⟩
        case zeros =>
          obtain ⟨same, valid⟩ := (completing p _ rfl).mp completes
          rw [own, after]
          rw [mark, Receiver.decode_completes same valid] at decoded
          have violations : d.violationsDue = x.receiver.violationsDue := by rw [decoded]
          exact ⟨by rw [decoded]; rfl, violations⟩
        case one =>
          have one := Receiver.decode_one (mt (completing p _ rfl).mpr wrong)
          rw [own, after]
          rw [mark, one] at decoded
          have violations : d.violationsDue =
              x.receiver.violationsDue + if p = x.receiver.lastPositive then 1 else 0 := by rw [decoded]
          exact ⟨by rw [decoded], violations⟩
        case within =>
          rw [own, after]
          dsimp only
          rw [Receiver.pushed, if_pos within]
        case searching =>
          intro word all result
          have result' : result = (y.receive symbol).receiver := congrArg Line.receiver own
          have searched : result.inFrame = (x.receiver.pushed e.1).1 ∧ result.bits = (x.receiver.pushed e.1).2 := by
            rw [result', after]
            exact ⟨rfl, rfl⟩
          obtain ⟨inFrame, bits⟩ := searched
          rw [inFrame, bits, Receiver.pushed, if_neg (by simp [searching])]
          have word' : word = syncBits := syncBits_eq.symm
          refine ⟨fun none' => by rw [if_pos none']; exact ⟨rfl, rfl⟩, fun some' => ?_⟩
          rw [if_neg some', word']
          refine ⟨fun p here first => ?_, fun none' => ?_⟩
          · rw [searchSync_found here first]
            exact ⟨rfl, rfl⟩
          · rw [searchSync_missed none']
            exact ⟨rfl, rfl⟩
        case space =>
          rw [own, after]
          have count : e.2.spaces = min (x.receiver.spaces + 1) 96 := by
            have spaces : d.spaces = min (x.receiver.spaces + 1) 96 := by rw [decoded, space, Receiver.decode_space]
            exact spaces
          have positive : d.lastPositive = x.receiver.lastPositive := by
            rw [decoded, space, Receiver.decode_space]
          refine ⟨count, positive, fun clear many => if_pos ⟨by rw [count]; omega, clear⟩, fun few => if_neg ?_⟩
          rintro ⟨full, clear⟩
          rw [count] at full
          rcases few with there | few
          · rw [clear] at there
            cases there
          · omega
        case mark =>
          rw [own, after]
          obtain ⟨spaces, positive⟩ := x.receiver.decode_mark code p
          rw [← mark, ← decoded] at spaces positive
          have none' : e.2.spaces = 0 := spaces
          exact ⟨spaces, positive, if_neg fun ⟨full, _⟩ => by rw [none'] at full; cases full⟩
      refine ⟨fun pair => ⟨_, ?_, got x level rfl rfl rfl rfl⟩, fun loop => ⟨fun y rest first => ⟨_, ?_, got _ y rfl rfl rfl rfl⟩,
        fun empty silent => ⟨_, ?_, got x .space rfl rfl rfl rfl⟩, fun empty sounds => ?_⟩⟩
      · rw [run, Line.inputSymbol, if_neg pair]
      · rw [run, Line.inputSymbol, if_pos loop, first]
      · rw [run, Line.inputSymbol, if_pos loop, empty]
        dsimp only
        rw [if_pos silent]
      · rw [run, Line.inputSymbol, if_pos loop, empty]
        dsimp only
        rw [if_neg sounds]

end

section
/-! SUPPORT. What the label unit's decisions look at, and the requests a line makes in order (R16, R122, R124). -/

set_option Elab.async false

namespace Sys2Proof.Machine

variable {s t u : State}

/-! ## What the label unit's decisions look at (R122, R124, R126) -/

/-- Two states that the ring and uplink decisions cannot tell apart. -/
structure LabelView (s t : State) : Prop where
  label : t.label = s.label
  report : t.report = s.report
  classes : t.fault.classes = s.fault.classes
  mode : t.fault.mode = s.fault.mode
  timing : t.timing = s.timing
  window : t.ownedWindow .label = s.ownedWindow .label
  carried : t.uplinkCarried = s.uplinkCarried

theorem LabelView.refl (s : State) : LabelView s s := ⟨rfl, rfl, rfl, rfl, rfl, rfl, rfl⟩

theorem LabelView.symm (h : LabelView s t) : LabelView t s :=
  ⟨h.label.symm, h.report.symm, h.classes.symm, h.mode.symm, h.timing.symm, h.window.symm, h.carried.symm⟩

theorem LabelView.trans (h : LabelView s t) (k : LabelView t u) : LabelView s u :=
  ⟨k.label.trans h.label, k.report.trans h.report, k.classes.trans h.classes, k.mode.trans h.mode,
    k.timing.trans h.timing, k.window.trans h.window, k.carried.trans h.carried⟩

theorem LabelView.isNormal (h : LabelView s t) : t.isNormal = s.isNormal := by
  rw [State.isNormal, h.mode]
  rfl

theorem offer_report_congr (object : Nat) (d : Detail) (report : t.report = s.report)
    (mode : t.fault.mode = s.fault.mode) (timing : t.timing = s.timing) :
    (offer object d t).report = (offer object d s).report := by
  simp only [offer_report, State.takesOffer, State.isNormal, State.firstRecord, report, mode, timing]
  rfl

theorem LabelView.setLabel (h : LabelView s t) (x : Label) : LabelView (s.setLabel x) (t.setLabel x) :=
  ⟨rfl, h.report, h.classes, h.mode, h.timing, h.window, h.carried⟩

theorem LabelView.raiseFault (h : LabelView s t) (c : FaultClass) (a : FailAddress) :
    LabelView (raiseFault c a s) (raiseFault c a t) := by
  rcases normal : s.isNormal with _ | _
  · rw [raiseFault_of_passOnly c a normal, raiseFault_of_passOnly c a (h.isNormal.trans normal)]
    exact h
  · rw [raiseFault_of_normal c a normal, raiseFault_of_normal c a (h.isNormal.trans normal)]
    obtain ⟨label, report, classes, mode, timing, window, carried⟩ := h
    exact ⟨label, by simp only [faultedState, report, timing], by simp only [faultedState, classes], mode, timing, window,
      carried⟩

theorem LabelView.dropBadClip (h : LabelView s t) (i : Fin 32) : LabelView (dropBadClip i s) (dropBadClip i t) := by
  unfold Sys2Proof.Machine.dropBadClip freeClip
  dsimp only
  rw [h.label]
  exact ((h.setLabel _).setLabel _).raiseFault ..

theorem LabelView.markPosted (h : LabelView s t) (i : Fin 32) (f : Closing → Closing) :
    LabelView (markPosted i f s) (markPosted i f t) := by
  unfold Sys2Proof.Machine.markPosted freeClip setClip
  rw [h.label]
  split
  · dsimp only
    split
    · exact h.setLabel _
    · exact h.setLabel _
  · exact h

theorem LabelView.uplinkOnce (h : LabelView s t) :
    LabelView (uplinkOnce s).1 (uplinkOnce t).1 ∧ (uplinkOnce t).2 = (uplinkOnce s).2 := by
  unfold Sys2Proof.Machine.uplinkOnce
  rw [h.label, h.carried]
  split
  · exact ⟨h, rfl⟩
  · split
    · exact ⟨h, rfl⟩
    · split
      · exact ⟨h.dropBadClip _, rfl⟩
      · split
        · exact ⟨h, rfl⟩
        · split
          · split
            · exact ⟨(h.setLabel _).markPosted .., rfl⟩
            · exact ⟨h, rfl⟩
          · exact ⟨h.markPosted .., rfl⟩

theorem LabelView.ringOnce (h : LabelView s t) :
    LabelView (ringOnce s).1 (ringOnce t).1 ∧ (ringOnce t).2 = (ringOnce s).2 := by
  unfold Sys2Proof.Machine.ringOnce
  rw [h.label]
  split
  · exact ⟨h, rfl⟩
  · split
    · exact ⟨h, rfl⟩
    · split
      · exact ⟨h.dropBadClip _, rfl⟩
      · split
        · exact ⟨h.markPosted .., rfl⟩
        · exact ⟨h, rfl⟩

theorem LabelView.settle {once : State → State × Bool}
    (same : ∀ {s t}, LabelView s t → LabelView (once s).1 (once t).1 ∧ (once t).2 = (once s).2) (n : Nat)
    (h : LabelView s t) : LabelView (settle once n s) (settle once n t) := by
  induction n generalizing s t with
  | zero => exact h
  | succ n ih =>
    obtain ⟨next, more⟩ := same h
    unfold Sys2Proof.Machine.settle
    rcases left : once s with ⟨s', a⟩
    rcases right : once t with ⟨t', b⟩
    rw [left, right] at next more
    obtain rfl : b = a := more
    cases b
    · exact next
    · exact ih next

theorem LabelView.postSettle (h : LabelView s t) : LabelView (postSettle s) (postSettle t) := by
  have ring : LabelView (ringSettle s) (ringSettle t) := by
    unfold ringSettle
    rw [h.label, h.window]
    split
    · exact h
    · split
      · exact h
      · exact h.settle LabelView.ringOnce _
  unfold Sys2Proof.Machine.postSettle uplinkSettle
  rw [ring.label]
  split
  · exact ring
  · exact ring.settle LabelView.uplinkOnce _

theorem uplinkCarried_setLine {l : LineId} {x : Line} (labels : x.applied.carriesLabels = (s.line l).applied.carriesLabels)
    (function : x.function = (s.line l).function) : (s.setLine l x).uplinkCarried = s.uplinkCarried := by
  let g (y : Line) : Bool := y.applied.carriesLabels && y.function != .idle
  have any (v : Vector Line 3) : (v.toList.any g) = (v.map g).toList.any fun b => b := by
    rw [Vector.toList_map, List.any_map]
    rfl
  have same : (s.lines.set l x).map g = s.lines.map g := by
    have own : g x = (s.lines.map g)[l] := by
      have got : (s.lines.map g)[l] = g s.lines[l] := by simp
      rw [got]
      simp only [g, labels, function]
      rfl
    rw [Vector.map_set, own, vector_set_getElem_fin]
  change (s.lines.set l x).toList.any g = s.lines.toList.any g
  rw [any, any, same]

/-! ## The requests of one requester, in order (R16) -/

theorem queueOf_snoc (ahead : Nat) (m : Purpose × MemRequest) (ms : List (Purpose × MemRequest)) (p : Purpose × MemRequest) :
    queueOf ahead (m :: ms ++ [p]) =
      { waiting := (queueOf ahead (m :: ms)).waiting
        later := (queueOf ahead (m :: ms)).later ++ [{ purpose := p.1, fixed := some p.2 }] } := by
  simp [queueOf]

/-- The queue of a requester that had none holds the requests made so far, in order. -/
structure QueueMade (q : Fin 8) (ahead : Nat) (ms : List (Purpose × MemRequest)) (s : State) : Prop where
  normal : s.isNormal = true
  queue : s.path.queues[q] = queueOf ahead ms
  forward : s.path.forward.length = ahead

theorem makeRequest_queueMade {q : Fin 8} {ahead : Nat} {ms : List (Purpose × MemRequest)} {p : Purpose} {r : MemRequest}
    (h : QueueMade q ahead ms s) (other : ∀ f k, p ≠ .busWrite f k) :
    QueueMade q ahead (ms ++ [(p, r)]) (makeRequest q { purpose := p, fixed := some r } s) := by
  have path := makeRequest_queuesOnly q { purpose := p, fixed := some r } s
  refine ⟨by rw [makeRequest_isNormal]; exact h.normal, ?_, by rw [path]; exact h.forward⟩
  rcases ms with _ | ⟨m, ms⟩
  · have queue := h.queue
    rw [makeRequest_of_first h.normal rfl other (by rw [queue]; rfl) (by rw [queue]; rfl), setQueue_queue, h.forward]
    rfl
  · have queue := h.queue
    rw [makeRequest_of_waiting h.normal (by rw [queue]; rfl), setQueue_queue, queueOf_snoc, queue]
    rfl

theorem makeRequests_queueMade {q : Fin 8} {ahead : Nat} {ms : List (Purpose × MemRequest)}
    (ps : List (Purpose × MemRequest)) (other : ∀ p ∈ ps, ∀ f k, p.1 ≠ .busWrite f k) (h : QueueMade q ahead ms s) :
    QueueMade q ahead (ms ++ ps) (makeRequests q (ps.map fun p => { purpose := p.1, fixed := some p.2 }) s) := by
  induction ps generalizing ms s with
  | nil => rwa [List.append_nil]
  | cons p ps ih =>
    have one := ih (fun p mem => other p (List.mem_cons_of_mem _ mem))
      (makeRequest_queueMade (r := p.2) h (other p List.mem_cons_self))
    rw [List.append_assoc] at one
    exact one

theorem LineRequests.of_queueMade {l : LineId} {ms : List (Purpose × MemRequest)}
    (h : s.isNormal = true → s.path.queues[lineQueue l] = { waiting := none, later := [] } →
      QueueMade (lineQueue l) s.path.forward.length ms t) : LineRequests l ms s t :=
  fun normal empty => (h normal empty).queue

end Sys2Proof.Machine
end

section
/-! SUPPORT. The decision for the next-frame buffer (R161, R163-R166, R173). -/

set_option Elab.async false

namespace Sys2Proof.Machine

variable {s t u v : State} {l : LineId} {x : Line}

/-! ## The state a decision is made in -/

/-- For a decision of line l the state v stands as s, with the line as x. -/
structure Standing (l : LineId) (x : Line) (s v : State) : Prop where
  applied : (v.line l).applied = x.applied
  labelSent : (v.line l).labelSent = x.labelSent
  list : (v.line l).list = x.list
  jobs : (v.line l).jobs = x.jobs
  nextJob : (v.line l).nextJob = x.nextJob
  view : LabelView s v
  governor : v.governor = s.governor
  path : v.path = s.path

/-- Nothing of the line changes but the next-frame buffer, the list and the jobs, and nothing of the totals. -/
structure KeepsFrame (l : LineId) (s t : State) : Prop where
  line : t.line l = { s.line l with
    next := (t.line l).next, list := (t.line l).list, jobs := (t.line l).jobs, nextJob := (t.line l).nextJob }
  totals : t.fault.totals = s.fault.totals

theorem KeepsFrame.of_line (lines : t.line l = s.line l) (totals : t.fault.totals = s.fault.totals) :
    KeepsFrame l s t := ⟨by rw [lines], totals⟩

theorem KeepsFrame.trans (h : KeepsFrame l s t) (k : KeepsFrame l t u) : KeepsFrame l s u :=
  ⟨by rw [k.line, h.line], k.totals.trans h.totals⟩

theorem KeepsFrame.of_setLine (next : Option Decided) (list : SendList) (jobs : List ReadJob) (nextJob : Nat)
    (s : State) : KeepsFrame l s (s.setLine l
      { s.line l with next := next, list := list, jobs := jobs, nextJob := nextJob }) :=
  ⟨by rw [State.setLine_line_same], rfl⟩

theorem makeRequests_line (q : Fin 8) (ms : List Made) (s : State) : (makeRequests q ms s).line l = s.line l :=
  congrArg (·[l]) (makeRequests_changes q ms s).lines

theorem makeRequest_line (q : Fin 8) (m : Made) (s : State) : (makeRequest q m s).line l = s.line l :=
  congrArg (·[l]) (makeRequest_changes q m s).lines

theorem makeRequests_keepsFrame (q : Fin 8) (ms : List Made) (s : State) : KeepsFrame l s (makeRequests q ms s) :=
  .of_line (makeRequests_line ..) (by rw [makeRequests_eq])

theorem makeRequest_keepsFrame (q : Fin 8) (m : Made) (s : State) : KeepsFrame l s (makeRequest q m s) :=
  .of_line (makeRequest_line ..) (by rw [makeRequest_eq])

theorem offer_keepsFrame (object : Nat) (d : Detail) (s : State) : KeepsFrame l s (offer object d s) :=
  .of_line (offer_line ..) (by rw [(offer_changes ..).fault])

theorem setNext_keepsFrame (d : Decided) (s : State) : KeepsFrame l s (setNext l d s) :=
  KeepsFrame.of_setLine ..

theorem setList_keepsFrame (y : SendList) (s : State) : KeepsFrame l s (s.setList l y) :=
  KeepsFrame.of_setLine ..

theorem startJob_keepsFrame (n : Option (Fin 4)) (serial byte length : Nat) (reads : List MemRequest)
    (purpose : Nat → Nat → Purpose) (s : State) : KeepsFrame l s (startJob l n serial byte length reads purpose s) :=
  (KeepsFrame.of_setLine ..).trans (makeRequests_keepsFrame ..)

theorem fetchDescriptor_keepsFrame (s : State) : KeepsFrame l s (fetchDescriptor l s) :=
  (KeepsFrame.of_setLine ..).trans (makeRequest_keepsFrame ..)

theorem listError_keepsFrame (address : Nat) (s : State) : KeepsFrame l s (listError l address s) :=
  (offer_keepsFrame ..).trans (setList_keepsFrame ..)

theorem descriptorReserved_keepsFrame (d : Descriptor) (s : State) : KeepsFrame l s (descriptorReserved l d s) := by
  unfold descriptorReserved
  dsimp only
  split
  · exact setList_keepsFrame ..
  · split
    · exact listError_keepsFrame ..
    · exact (setList_keepsFrame ..).trans (fetchDescriptor_keepsFrame _)

theorem decideFile_keepsFrame (d : Descriptor) (s : State) : KeepsFrame l s (decideFile l d s) := by
  unfold decideFile
  dsimp only
  split
  · refine .trans ?_ (descriptorReserved_keepsFrame ..)
    exact .trans (.trans (setList_keepsFrame ..) (setNext_keepsFrame ..)) (startJob_keepsFrame ..)
  · exact .trans (.trans (setList_keepsFrame ..) (setNext_keepsFrame ..)) (startJob_keepsFrame ..)

theorem decideFileOrFill_keepsFrame (s : State) : KeepsFrame l s (decideFileOrFill l s) := by
  unfold decideFileOrFill
  split
  · exact decideFile_keepsFrame ..
  · exact setNext_keepsFrame ..

theorem decideStream_keepsFrame (n : Fin 4) (s : State) : KeepsFrame l s (decideStream l n s) := by
  unfold decideStream
  split
  · exact KeepsFrame.trans (t := s.setStream n _) (.of_line rfl rfl) (setNext_keepsFrame ..)
  · split
    next w g y _ =>
      unfold decideLive
      dsimp only
      refine .trans (.trans ?_ (setNext_keepsFrame ..)) (startJob_keepsFrame ..)
      exact .of_line rfl rfl
    next => exact decideFileOrFill_keepsFrame _

/-- A LABEL decision sets the period's label flag too (R163). -/
theorem decideLabel_line (s : State) : (decideLabel l s).line l =
    { s.line l with next := ((decideLabel l s).line l).next, labelSent := true } ∧
    (decideLabel l s).fault.totals = s.fault.totals := by
  unfold decideLabel
  dsimp only
  refine ⟨?_, by rw [postSettle_settled]; rfl⟩
  have kept (t : State) : (postSettle t).line l = t.line l := congrArg (·[l]) (postSettle_changes t).lines
  rw [kept, State.setLine_line_same]

/-- What a decision leaves of the frame in transmission and of the totals. -/
theorem decideFrame_line (s : State) : (decideFrame l s).line l =
    { s.line l with
      next := ((decideFrame l s).line l).next, labelSent := ((decideFrame l s).line l).labelSent
      list := ((decideFrame l s).line l).list, jobs := ((decideFrame l s).line l).jobs
      nextJob := ((decideFrame l s).line l).nextJob } ∧
    (decideFrame l s).fault.totals = s.fault.totals := by
  have other (t : State) (h : KeepsFrame l s t) : t.line l =
      { s.line l with
        next := (t.line l).next, labelSent := (t.line l).labelSent, list := (t.line l).list, jobs := (t.line l).jobs
        nextJob := (t.line l).nextJob } ∧ t.fault.totals = s.fault.totals :=
    ⟨by rw [h.line], h.totals⟩
  unfold decideFrame
  split
  · obtain ⟨line, totals⟩ := decideLabel_line (l := l) s
    exact ⟨by rw [line], totals⟩
  · split
    · exact other _ (decideStream_keepsFrame ..)
    · exact other _ (decideFileOrFill_keepsFrame _)

/-! ## FILE and FILL (R166, R173) -/

theorem QueueMade.of_path {q : Fin 8} {ahead : Nat} {ms : List (Purpose × MemRequest)} (h : QueueMade q ahead ms s)
    (path : t.path = s.path) (mode : t.fault.mode = s.fault.mode) : QueueMade q ahead ms t :=
  ⟨by rw [State.isNormal, mode]; exact h.normal, by rw [path]; exact h.queue, by rw [path]; exact h.forward⟩

theorem Standing.queueMade (h : Standing l x s v) (normal : s.isNormal = true)
    (empty : s.path.queues[lineQueue l] = { waiting := none, later := [] }) :
    QueueMade (lineQueue l) s.path.forward.length [] v :=
  ⟨h.view.isNormal.trans normal, by rw [h.path, empty]; rfl, by rw [h.path]⟩

/-- The line's queue once the reads of a piece have been made. -/
theorem Standing.piece (h : Standing l x s v) (reads : List MemRequest) (purpose : Nat → Nat → Purpose)
    (other : ∀ i j f k, purpose i j ≠ .busWrite f k) (normal : s.isNormal = true)
    (empty : s.path.queues[lineQueue l] = { waiting := none, later := [] }) (path : t.path = v.path)
    (mode : t.fault.mode = v.fault.mode) (n : Nat) :
    QueueMade (lineQueue l) s.path.forward.length (reads.zipIdx.map fun q => (purpose n q.2, q.1))
      (makeRequests (lineQueue l) (reads.zipIdx.map fun q => { purpose := purpose n q.2, fixed := some q.1 }) t) := by
  have made := makeRequests_queueMade (reads.zipIdx.map fun q => (purpose n q.2, q.1))
    (fun p mem f k => by obtain ⟨q, -, rfl⟩ := List.mem_map.mp mem; exact other _ _ _ _)
    ((h.queueMade normal empty).of_path path mode)
  rw [List.map_map] at made
  exact made

/-- The reads of a FILE piece, made by a line that holds their job (R166, R173). -/
theorem decideFile_eq (d : Descriptor) (v : State) :
    let y := v.line l
    let offset := y.list.reserved
    let length := min 508 (d.length - offset)
    let reads := coverReads (d.address + offset) length
    let frame : Decided :=
      { kind := .file, tag := d.tag.toNat, position := BitVec.ofNat 32 offset, isPartial := false, key := false,
        last := d.last && decide (offset + length = d.length), payload := .waiting y.nextJob }
    let job : ReadJob :=
      { id := y.nextJob, stream := none, serial := y.list.serial, lead := (d.address + offset) % 8,
        length := length, total := reads.length, returned := [], failed := false, discarded := false }
    let z : Line :=
      { y with
        next := some frame, list := { y.list with reserved := offset + length }, jobs := y.jobs ++ [job]
        nextJob := y.nextJob + 1 }
    let r := makeRequests (lineQueue l)
      (reads.zipIdx.map fun q => { purpose := Purpose.fileRead l y.nextJob q.2, fixed := some q.1 }) (v.setLine l z)
    decideFile l d v = if offset + length = d.length then descriptorReserved l d r else r := by
  intro y offset length reads frame job z r
  have same : startJob l none y.list.serial (d.address + offset) length reads (Purpose.fileRead l)
      (setNext l frame (v.setList l { y.list with reserved := offset + length })) = r := by
    unfold startJob setNext State.setList
    simp only [State.setLine_line_same, State.setLine_setLine]
    rfl
  rw [← same]
  rfl

/-- What the end of a descriptor's bytes leaves, case by case (R173). -/
theorem descriptorReserved_cases (d : Descriptor) (r : State) :
    let y := (r.line l).list
    let follower := if d.chain then d.next else y.current + 32
    (d.last = true → descriptorReserved l d r = r.setList l { y with ending := true }) ∧
    (d.last = false → follower % 32 ≠ 0 ∨ 2 ^ 36 ≤ follower → descriptorReserved l d r = listError l y.current r) ∧
    (d.last = false → follower % 32 = 0 → follower < 2 ^ 36 → descriptorReserved l d r =
      makeRequest (lineQueue l)
        { purpose := .descriptorFetch l (r.line l).nextJob, fixed := some (readAt follower 4) }
        (r.setLine l { r.line l with
          nextJob := (r.line l).nextJob + 1
          list := { y with current := follower, loaded := none, fetching := some (r.line l).nextJob } })) := by
  intro y follower
  have next : y.follower d = follower := rfl
  unfold descriptorReserved
  dsimp only
  refine ⟨fun last => if_pos last, fun more bad => ?_, fun more low high => ?_⟩
  · rw [if_neg (by simp [more]), next, if_pos ((badDescriptorAddress_iff _).mpr bad)]
  · rw [if_neg (by simp [more]), next, if_neg (by rw [badDescriptorAddress_iff]; omega)]
    unfold fetchDescriptor State.setList
    simp only [State.setLine_line_same, State.setLine_setLine]
    rfl

theorem Standing.file {d : Descriptor} (h : Standing l x s v) : FileDecided l x d s (decideFile l d v) := by
  unfold FileDecided
  intro offset length whole follower reads pieces next job reserved
  have equation := decideFile_eq (l := l) d v
  dsimp only at equation
  rw [h.list, h.jobs, h.nextJob] at equation
  let z : Line := { v.line l with next := some next, list := reserved, jobs := x.jobs ++ [job], nextJob := x.nextJob + 1 }
  let r := makeRequests (lineQueue l)
    (reads.zipIdx.map fun q => { purpose := Purpose.fileRead l x.nextJob q.2, fixed := some q.1 }) (v.setLine l z)
  have decided : decideFile l d v = if whole then descriptorReserved l d r else r := equation
  have line : r.line l = z := (makeRequests_line ..).trans (State.setLine_line_same ..)
  have changes : ChangesOnly [.path, .mixer, .fault] (v.setLine l z) r := makeRequests_changes ..
  have governor : r.governor = s.governor := changes.governor.trans h.governor
  have report : r.report = s.report := changes.report.trans h.view.report
  have timing : r.timing = s.timing := changes.timing.trans h.view.timing
  have mode : r.fault.mode = s.fault.mode := by
    have kept : r.fault.mode = v.fault.mode := congrArg (·.fault.mode) (makeRequests_eq ..)
    exact kept.trans h.view.mode
  have made (normal : s.isNormal = true) (empty : s.path.queues[lineQueue l] = { waiting := none, later := [] }) :
      QueueMade (lineQueue l) s.path.forward.length pieces r :=
    h.piece (t := v.setLine l z) reads (Purpose.fileRead l) (fun _ _ _ _ => nofun) normal empty rfl rfl x.nextJob
  obtain ⟨ending, wrong, fetched⟩ := descriptorReserved_cases (l := l) d r
  rw [line] at ending wrong fetched
  rw [decided]
  by_cases all : whole
  · rw [if_pos all]
    rcases last : d.last with _ | _
    · by_cases bad : follower % 32 ≠ 0 ∨ 2 ^ 36 ≤ follower
      · rw [wrong last bad]
        have told : (listError l x.list.current r).report = (offer l.val (.sendList .error x.list.current) s).report :=
          offer_report_congr _ _ report mode timing
        have own : (listError l x.list.current r).line l = { z with list := reserved.detach } := by
          unfold listError State.setList
          rw [State.setLine_line_same, offer_line, line]
        have away (normal : s.isNormal = true) (empty : s.path.queues[lineQueue l] = { waiting := none, later := [] }) :
            QueueMade (lineQueue l) s.path.forward.length pieces (listError l x.list.current r) :=
          (made normal empty).of_path (listError_changes ..).path (congrArg FaultUnit.mode (listError_changes ..).fault)
        refine ⟨congrArg Line.next own, congrArg Line.jobs own, ?_, fun no => absurd all no, fun _ => nofun,
          fun _ _ _ => ⟨congrArg Line.list own, told, .of_queueMade away⟩, fun _ _ low high => ?_⟩
        · exact (listError_changes ..).governor.trans governor
        · rcases bad with odd | far <;> omega
      · rw [not_or, not_not, Nat.not_le] at bad
        rw [fetched last bad.1 bad.2]
        let f : Line := { z with
          nextJob := x.nextJob + 2, list := { reserved with
            current := follower, loaded := none, fetching := some (x.nextJob + 1) } }
        let t := makeRequest (lineQueue l)
          { purpose := .descriptorFetch l (x.nextJob + 1), fixed := some (readAt follower 4) } (r.setLine l f)
        have own : t.line l = f := (makeRequest_line ..).trans (State.setLine_line_same ..)
        have after : ChangesOnly [.path, .mixer, .fault] (r.setLine l f) t := makeRequest_changes ..
        have both (normal : s.isNormal = true) (empty : s.path.queues[lineQueue l] = { waiting := none, later := [] }) :
            QueueMade (lineQueue l) s.path.forward.length
              (pieces ++ [(.descriptorFetch l (x.nextJob + 1), readAt follower 4)]) t :=
          makeRequest_queueMade ((made normal empty).of_path rfl rfl) (fun _ _ => nofun)
        refine ⟨congrArg Line.next own, congrArg Line.jobs own, after.governor.trans governor, fun no => absurd all no,
          fun _ => nofun, fun _ _ wrong => ?_,
          fun _ _ _ _ => ⟨congrArg Line.list own, after.report.trans report, .of_queueMade both⟩⟩
        · rcases wrong with odd | far <;> omega
    · rw [ending last]
      have own : (r.setList l { reserved with ending := true }).line l = { z with list := { reserved with ending := true } } := by
        unfold State.setList
        rw [State.setLine_line_same, line]
      refine ⟨congrArg Line.next own, congrArg Line.jobs own, governor, fun no => absurd all no,
        fun _ _ => ⟨congrArg Line.list own, report, .of_queueMade fun normal empty => (made normal empty).of_path rfl rfl⟩,
        fun _ => nofun, fun _ => nofun⟩
  · rw [if_neg all]
    refine ⟨congrArg Line.next line, congrArg Line.jobs line, governor,
      fun _ => ⟨congrArg Line.list line, report, .of_queueMade made⟩, fun yes => absurd yes all,
      fun yes => absurd yes all, fun yes => absurd yes all⟩

/-- A decision that needs no reads: the buffer takes a frame, and nothing else changes. -/
theorem Standing.setNext (h : Standing l x s v) (d : Decided) :
    let t := setNext l d v
    (t.line l).next = some d ∧ (t.line l).jobs = x.jobs ∧ (t.line l).list = x.list ∧ (t.line l).labelSent = x.labelSent ∧
      t.governor = s.governor ∧ t.report = s.report ∧ LineRequests l [] s t := by
  intro t
  have own : t.line l = { v.line l with next := some d } := State.setLine_line_same ..
  refine ⟨congrArg Line.next own, ?_, ?_, ?_, h.governor, h.view.report,
    .of_queueMade fun normal empty => (h.queueMade normal empty).of_path rfl rfl⟩
  · exact (congrArg Line.jobs own).trans h.jobs
  · exact (congrArg Line.list own).trans h.list
  · exact (congrArg Line.labelSent own).trans h.labelSent

theorem Standing.fileOrFill (h : Standing l x s v) : FileOrFillDecided l x s (decideFileOrFill l v) := by
  unfold FileOrFillDecided decideFileOrFill
  rw [h.list]
  obtain ⟨next, jobs, list, -, governor, report, requests⟩ := h.setNext Decided.fill
  have fill (none' : x.list.available = none) : (match x.list.available with
      | some d => decideFile l d v
      | none => Sys2Proof.Machine.setNext l Decided.fill v) = Sys2Proof.Machine.setNext l Decided.fill v := by rw [none']
  rcases loaded : x.list.loaded with _ | d
  · have none' : x.list.available = none := by
      unfold SendList.available
      rw [loaded]
      cases x.list.state <;> rfl
    dsimp only
    rw [none']
    exact ⟨next, jobs, list, governor, report, requests⟩
  · dsimp only
    split
    next open' =>
      have some' : x.list.available = some d := by
        unfold SendList.available
        rw [loaded, open'.1]
        exact if_pos open'.2
      rw [some']
      exact h.file
    next shut =>
      have none' : x.list.available = none := by
        unfold SendList.available
        rw [loaded]
        cases state : x.list.state with
        | running => exact if_neg fun room => shut ⟨state, room⟩
        | _ => rfl
      rw [none']
      exact ⟨next, jobs, list, governor, report, requests⟩

/-! ## LIVE and SKIP (R164, R165) -/

theorem Standing.live (h : Standing l x s v) {n : Fin 4} {w : WindowEntry} {p : Picture} {rest : List Picture}
    {g : Grant} {y : Stream} (claim : (s.stream n).claim = none) (pictures : (s.stream n).pictures = p :: rest)
    (granted : (s.stream n).grant n w = some (g, y)) : LiveDecided l x n w p rest s (decideLive l w g y v) := by
  have owed : p.owed = true := by
    by_contra not
    rw [Stream.grant, claim, pictures] at granted
    simp [not] at granted
  unfold LiveDecided
  intro stream length ring offset reads next job claimed
  have given : g =
      { stream := n, picture := p.number, key := p.key, ringOffset := offset, address := w.first + offset
        length := length, offset := p.length - p.unsent, last := length == p.unsent } ∧ y = claimed := by
    rw [Stream.grant, claim, pictures] at granted
    simp only [owed, if_true, Option.some.injEq, Prod.mk.injEq] at granted
    exact ⟨granted.1.symm, granted.2.symm⟩
  obtain ⟨rfl, rfl⟩ := given
  let z : Line := { v.line l with next := some next, jobs := x.jobs ++ [job], nextJob := x.nextJob + 1 }
  let t := makeRequests (lineQueue l)
    (reads.zipIdx.map fun q => { purpose := Purpose.payloadRead l x.nextJob q.2, fixed := some q.1 })
    ((v.setStream n claimed).setLine l z)
  have equation : decideLive l w
      { stream := n, picture := p.number, key := p.key, ringOffset := offset, address := w.first + offset
        length := length, offset := p.length - p.unsent, last := length == p.unsent } claimed v = t := by
    have line : (v.setStream n claimed).line l = v.line l := rfl
    have ringed : ringReads w.first w.ringBytes offset length = reads := rfl
    unfold decideLive startJob Sys2Proof.Machine.setNext
    simp only [State.setLine_line_same, State.setLine_setLine, line, ringed, h.nextJob, h.jobs]
    rfl
  rw [equation]
  have own : t.line l = z := (makeRequests_line ..).trans (State.setLine_line_same ..)
  have changes : ChangesOnly [.path, .mixer, .fault] ((v.setStream n claimed).setLine l z) t := makeRequests_changes ..
  refine ⟨congrArg Line.next own, congrArg Line.jobs own, (congrArg Line.list own).trans h.list, ?_,
    changes.report.trans h.view.report, .of_queueMade fun normal empty => ?_⟩
  · rw [changes.governor]
    change ({ v.governor with streams := v.governor.streams.set n claimed } : Governor) = _
    rw [h.governor]
  · exact h.piece (t := (v.setStream n claimed).setLine l z) reads (Purpose.payloadRead l) (fun _ _ _ _ => nofun) normal
      empty rfl rfl x.nextJob

/-- The head picture is granted: no claim is held, and it is not CORRUPT (R135). -/
theorem Stream.grant_eq (y : Stream) (n : Fin 4) (w : WindowEntry) :
    (∀ p rest, y.claim = none → y.pictures = p :: rest → p.state ≠ .corrupt → ∃ g z, y.grant n w = some (g, z)) ∧
    (y.claim ≠ none ∨ y.pictures = [] ∨ (∃ p rest, y.pictures = p :: rest ∧ p.state = .corrupt) →
      y.grant n w = none) := by
  refine ⟨fun p rest claim pictures state => ?_, fun none' => ?_⟩
  · rw [Stream.grant, claim, pictures]
    have owed : p.owed = true := by simp [Picture.owed, state]
    simp [owed]
  · rcases claim : y.claim with _ | c
    · rcases pictures : y.pictures with _ | ⟨p, rest⟩
      · rw [Stream.grant, claim, pictures]
      · have corrupt : p.owed = false := by
          simp only [claim, pictures] at none'
          rcases none' with not | not | ⟨q, r, same, state⟩
          · exact absurd rfl not
          · cases not
          · cases same
            simp [Picture.owed, state]
        rw [Stream.grant, claim, pictures]
        simp [corrupt]
    · rw [Stream.grant, claim]

/-- The decision of a line with a live stream whose governor runs, and that has no notices (R161, R165). -/
theorem Standing.claimed (h : Standing l x s v) {n : Fin 4} (running : s.governor.stopped = false) :
    let chosen := match v.claimFor n with
      | some (w, g, y) => decideLive l w g y v
      | none => decideFileOrFill l v
    match s.codedWindow n, (s.stream n).claim, (s.stream n).pictures with
      | some w, none, p :: rest =>
        if p.state = .corrupt then FileOrFillDecided l x s chosen else LiveDecided l x n w p rest s chosen
      | _, _, _ => FileOrFillDecided l x s chosen := by
  have stream : v.stream n = s.stream n := by rw [State.stream, h.governor]; rfl
  have window : v.codedWindow n = s.codedWindow n := by rw [State.codedWindow, h.path]; rfl
  have asked : v.claimFor n =
      (s.codedWindow n).bind fun w => ((s.stream n).grant n w).map fun g => (w, g.1, g.2) := by
    rw [State.claimFor, h.governor, if_neg (by simp [running]), stream, window]
    cases s.codedWindow n <;> rfl
  intro chosen
  have fallen (none' : v.claimFor n = none) : FileOrFillDecided l x s chosen := by
    have chosen' : chosen = decideFileOrFill l v := by
      unfold chosen
      rw [none']
    rw [chosen']
    exact h.fileOrFill
  rcases coded : s.codedWindow n with _ | w
  · exact fallen (by rw [asked, coded]; rfl)
  · rw [coded, Option.bind_some] at asked
    obtain ⟨granted, refused⟩ := (s.stream n).grant_eq n w
    rcases claim : (s.stream n).claim with _ | c
    · rcases pictures : (s.stream n).pictures with _ | ⟨p, rest⟩
      · exact fallen (by rw [asked, refused (.inr (.inl pictures))]; rfl)
      · dsimp only
        split
        next corrupt => exact fallen (by rw [asked, refused (.inr (.inr ⟨p, rest, pictures, corrupt⟩))]; rfl)
        next sound =>
          obtain ⟨g, y, got⟩ := granted p rest claim pictures sound
          have chosen' : chosen = decideLive l w g y v := by
            unfold chosen
            rw [asked, got]
            rfl
          rw [chosen']
          exact h.live claim pictures got
    · exact fallen (by rw [asked, refused (.inl (by rw [claim]; nofun))]; rfl)

theorem Standing.decided (h : Standing l x s v) : FrameDecided l x s (decideFrame l v) := by
  unfold FrameDecided decideFrame
  have waiting : v.labelsWaiting l = true ↔
      x.applied.carriesLabels = true ∧ x.labelSent = false ∧ s.label.uplink ≠ [] ∧ s.label.stopped = false := by
    unfold State.labelsWaiting
    simp [h.applied, h.labelSent, h.view.label, and_assoc]
  by_cases labels : x.applied.carriesLabels = true ∧ x.labelSent = false ∧ s.label.uplink ≠ [] ∧ s.label.stopped = false
  · rw [if_pos labels, if_pos (waiting.mpr labels)]
    intro copies told
    unfold decideLabel
    dsimp only
    rw [h.view.label]
    let d : Decided := Decided.plain .label copies.length 0 (.ready (copies.flatMap fun c => c.take 60))
    let y : Line := { v.line l with next := some d, labelSent := true }
    let before := (v.setLabel { s.label with uplink := s.label.uplink.drop 8 }).setLine l y
    have own : (postSettle before).line l = y :=
      (congrArg (·[l]) (postSettle_changes before).lines).trans (State.setLine_line_same ..)
    have view : LabelView { s with label := { s.label with uplink := s.label.uplink.drop 8 } } before := by
      have carried : before.uplinkCarried = (v.setLabel { s.label with uplink := s.label.uplink.drop 8 }).uplinkCarried :=
        uplinkCarried_setLine rfl rfl
      exact ⟨rfl, h.view.report, h.view.classes, h.view.mode, h.view.timing, h.view.window, carried.trans h.view.carried⟩
    have settled := view.postSettle
    have mode : (postSettle before).fault.mode = v.fault.mode := by
      rw [postSettle_settled]
      rfl
    have changes := postSettle_changes before
    exact ⟨congrArg Line.next own, congrArg Line.labelSent own, (congrArg Line.jobs own).trans h.jobs,
      (congrArg Line.list own).trans h.list, changes.governor.trans h.governor, settled.label, settled.report,
      .of_queueMade fun normal empty => (h.queueMade normal empty).of_path changes.path mode⟩
  · rw [if_neg labels, if_neg (mt waiting.mp labels), h.applied]
    have kept (t : State) (frame : KeepsFrame l v t) (changes : ChangesOnly [.path, .report, .mixer, .governor, .lines, .fault] v t) :
        (t.line l).labelSent = x.labelSent ∧ t.label = s.label :=
      ⟨(congrArg Line.labelSent frame.line).trans h.labelSent, changes.label.trans h.view.label⟩
    rcases live : x.applied.liveStream with _ | n
    · obtain ⟨sent, label⟩ := kept _ (decideFileOrFill_keepsFrame v) ((decideFileOrFill_changes ..).mono (by decide))
      exact ⟨sent, label, h.fileOrFill⟩
    · obtain ⟨sent, label⟩ := kept _ (decideStream_keepsFrame n v) (decideStream_changes ..)
      refine ⟨sent, label, ?_⟩
      have stream : v.stream n = s.stream n := by rw [State.stream, h.governor]; rfl
      dsimp only
      unfold decideStream
      rw [h.governor, stream]
      split
      next stopped =>
        have none' : v.claimFor n = none := by rw [State.claimFor, h.governor, if_pos stopped]
        rw [stopped, none']
        cases (s.stream n).notices <;> exact h.fileOrFill
      next going =>
        have running : s.governor.stopped = false := by simpa using going
        have claimed := h.claimed (n := n) running
        dsimp only at claimed
        rw [running]
        rcases notices : (s.stream n).notices with _ | ⟨first, rest⟩
        · dsimp only
          rcases coded : s.codedWindow n with _ | w
          · rw [coded] at claimed
            exact claimed
          · rcases claim : (s.stream n).claim with _ | c
            · rcases pictures : (s.stream n).pictures with _ | ⟨p, rest⟩ <;>
                (rw [coded, claim, pictures] at claimed; exact claimed)
            · rw [coded, claim] at claimed
              exact claimed
        · have own : (decideSkip l n first rest v).line l = { v.line l with
              next := ((decideSkip l n first rest v).line l).next } := by
            unfold decideSkip Sys2Proof.Machine.setNext
            simp only [State.setLine_line_same]
            rfl
          refine ⟨State.setLine_line_same .. ▸ rfl, (congrArg Line.jobs own).trans h.jobs,
            (congrArg Line.list own).trans h.list, ?_, h.view.report,
            .of_queueMade fun normal empty => (h.queueMade normal empty).of_path rfl rfl⟩
          change ({ v.governor with streams := v.governor.streams.set n _ } : Governor) = _
          simp only [h.governor, stream, running]

end Sys2Proof.Machine
end

section
/-! SUPPORT. Frame starts: the choice, the frame sent and the decision after it (R158, R160, R161, R168). -/

set_option Elab.async false

namespace Sys2Proof.Machine

variable {s t u v w : State} {l : LineId} {x : Line} {count : Count32}

/-! ## The settled line -/

theorem settleLine_line (s : State) : (settleLine l s).line l = (s.line l).settleOutput := State.setLine_line_same ..

theorem settleLine_next (s : State) : ((settleLine l s).line l).next = (s.line l).next := by
  rw [settleLine_line]
  rfl

theorem settleLine_labelSent (s : State) : ((settleLine l s).line l).labelSent = (s.line l).labelSent := by
  rw [settleLine_line]
  rfl

theorem settleLine_jobs (s : State) : ((settleLine l s).line l).jobs = (s.line l).jobs := by
  rw [settleLine_line]
  rfl

theorem settleLine_list (s : State) : ((settleLine l s).line l).list = (s.line l).list := by
  rw [settleLine_line]
  rfl

/-- A decision stands when the line's output is settled after it. -/
theorem FrameDecided.settled (h : FrameDecided l x s t) : FrameDecided l x s (settleLine l t) := by
  have governor : (settleLine l t).governor = t.governor := rfl
  have label : (settleLine l t).label = t.label := rfl
  have report : (settleLine l t).report = t.report := rfl
  have path : (settleLine l t).path = t.path := rfl
  unfold FrameDecided FileOrFillDecided FileDecided LiveDecided LineRequests at h ⊢
  simp only [settleLine_next, settleLine_labelSent, settleLine_jobs, settleLine_list, governor, label, report, path]
  exact h

/-- Each decision puts a frame into the buffer. -/
theorem FrameDecided.next (h : FrameDecided l x s t) : (t.line l).next ≠ none := by
  have some' {d : Decided} (e : (t.line l).next = some d) : (t.line l).next ≠ none := by
    rw [e]
    nofun
  have fileOrFill (h : FileOrFillDecided l x s t) : (t.line l).next ≠ none := by
    unfold FileOrFillDecided FileDecided at h
    split at h
    · split at h
      · exact some' h.1
      · exact some' h.1
    · exact some' h.1
  unfold FrameDecided at h
  split at h
  · exact some' h.1
  · obtain ⟨-, -, h⟩ := h
    split at h
    · exact fileOrFill h
    · split at h
      · exact fileOrFill h
      · split at h
        · exact some' h.1
        · split at h
          · exact fileOrFill h
          · exact some' h.1
        · exact fileOrFill h

theorem lines_eq_set (others : OtherLinesSame l s t) : t.lines = s.lines.set l (t.line l) := by
  refine Vector.ext fun i below => ?_
  have place := getElem_set_fin s.lines l ⟨i, below⟩ (t.line l)
  refine Eq.trans ?_ place.symm
  split
  next own =>
    subst own
    rfl
  next other => exact others.same ⟨i, below⟩ other

theorem uplinkCarried_of_line (others : OtherLinesSame l s t)
    (labels : (t.line l).applied.carriesLabels = (s.line l).applied.carriesLabels)
    (function : (t.line l).function = (s.line l).function) : t.uplinkCarried = s.uplinkCarried := by
  have set : t.uplinkCarried = (s.setLine l (t.line l)).uplinkCarried := by
    unfold State.uplinkCarried
    rw [lines_eq_set others]
    rfl
  rw [set, uplinkCarried_setLine labels function]

/-! ## The frame sent (R158, R168, R178, R204) -/

/-- For a frame start of line l the state v stands as s, with the line as x. -/
structure Starting (l : LineId) (x : Line) (s v : State) : Prop extends Standing l x s v where
  audioDue : (v.line l).audioDue = x.audioDue
  next : (v.line l).next = x.next
  periodUnlocked : (v.line l).periodUnlocked = x.periodUnlocked
  sequence : (v.line l).sequence = x.sequence
  held : v.mixer.held = s.mixer.held
  totals : v.fault.totals = s.fault.totals
  state : v.fault.state = s.fault.state

/-- The frame that goes into transmission (R178, R179). -/
def sentFrame (l : LineId) (x : Line) (count : Count32) (d : Decided) (payload : List Byte) : TxFrame :=
  { kind := d.kind, last := d.last, sent := 0,
    bytes := frameBytes d.kind.code x.periodUnlocked d.isPartial d.key d.last l x.sequence count d.tag
      d.position payload }

/-- A frame has been sent, an underrun slot or not, with the audio flag and the buffer left as told, and a decision
made when the buffer was left empty. -/
structure FrameGone (l : LineId) (x : Line) (count : Count32) (d : Decided) (payload : List Byte) (isUnderrun : Bool)
    (audioDue : Bool) (next : Option Decided) (s t : State) : Prop where
  sequence : (t.line l).sequence = x.sequence + 1
  newPeriod : (t.line l).newPeriod = false
  audio : (t.line l).audioDue = audioDue
  tx : (t.line l).tx = some (sentFrame l x count d payload)
  decided : next = none → FrameDecided l x s t
  kept : ∀ e, next = some e → (t.line l).next = some e ∧ (t.line l).labelSent = x.labelSent ∧
    (t.line l).jobs = x.jobs ∧ (t.line l).list = x.list ∧ t.label = s.label ∧ t.governor = s.governor ∧
    t.report = s.report ∧ LineRequests l [] s t
  totals : t.fault.totals = if s.isNormal = true ∧ s.fault.state = .active then
    s.fault.totals.set l ((s.fault.totals[l].addFrame d.kind).addUnderrun isUnderrun) else s.fault.totals

theorem sendFrame_fault (d : Decided) (payload : List Byte) (isUnderrun : Bool) (s : State) :
    (sendFrame l count d payload isUnderrun s).fault = { s.fault with
      totals := if s.isNormal = true ∧ s.fault.state = .active then
        s.fault.totals.set l ((s.fault.totals[l].addFrame d.kind).addUnderrun isUnderrun) else s.fault.totals } := by
  unfold sendFrame measureOffer
  dsimp only
  have same (y : Line) : ((s.setLine l y).isNormal && (s.setLine l y).fault.state == .active) =
      (s.isNormal && s.fault.state == .active) := rfl
  rw [same]
  by_cases counts : s.isNormal = true ∧ s.fault.state = .active
  · rw [if_pos counts, if_pos (by simp [counts])]
    rfl
  · rw [if_neg counts, if_neg (by simpa using counts)]
    rfl

theorem sendFrame_line (d : Decided) (payload : List Byte) (isUnderrun : Bool) (s : State) :
    (sendFrame l count d payload isUnderrun s).line l = { s.line l with
      tx := some (sentFrame l (s.line l) count d payload)
      sequence := (s.line l).sequence + 1
      newPeriod := false } := by
  unfold sendFrame
  dsimp only
  rw [State.line, (measureOffer_changes ..).lines]
  exact State.setLine_line_same ..

theorem Starting.gone (h : Starting l x s v) {d : Decided} {payload : List Byte} {isUnderrun audioDue : Bool}
    {next : Option Decided} (choice : chooseFrame l count v =
      sendFrame l count d payload isUnderrun (v.setLine l { v.line l with audioDue := audioDue, next := next })) :
    FrameGone l x count d payload isUnderrun audioDue next s (settleLine l (frameStart l count v)) := by
  let c := chooseFrame l count v
  have line : c.line l = { v.line l with
      audioDue := audioDue, next := next, tx := some (sentFrame l x count d payload), sequence := x.sequence + 1
      newPeriod := false } := by
    have sent := sendFrame_line (l := l) (count := count) d payload isUnderrun
      (v.setLine l { v.line l with audioDue := audioDue, next := next })
    rw [← choice, State.setLine_line_same] at sent
    refine sent.trans ?_
    simp only [sentFrame, h.sequence, h.periodUnlocked]
  have fault : c.fault = { v.fault with
      totals := if s.isNormal = true ∧ s.fault.state = .active then
        s.fault.totals.set l ((s.fault.totals[l].addFrame d.kind).addUnderrun isUnderrun) else s.fault.totals } := by
    have sent := sendFrame_fault (l := l) (count := count) d payload isUnderrun
      (v.setLine l { v.line l with audioDue := audioDue, next := next })
    rw [← choice] at sent
    refine sent.trans ?_
    have normal : (v.setLine l { v.line l with audioDue := audioDue, next := next }).isNormal = s.isNormal := h.view.isNormal
    have same : (v.setLine l { v.line l with audioDue := audioDue, next := next }).fault = v.fault := rfl
    rw [normal, same, h.state, h.totals]
  have changes : ChangesOnly [.lines, .fault] v c := chooseFrame_changes ..
  have mode : c.fault.mode = v.fault.mode := by rw [fault]
  have standing : Standing l x s c := by
    have carried : c.uplinkCarried = v.uplinkCarried :=
      uplinkCarried_of_line (chooseFrame_others ..) (by rw [line]) (by rw [line])
    have view : LabelView v c := by
      refine ⟨changes.label, changes.report, by rw [fault], mode, changes.timing, ?_, carried⟩
      rw [State.ownedWindow, changes.path]
      rfl
    exact ⟨by rw [line, ← h.applied], by rw [line, ← h.labelSent], by rw [line, ← h.list], by rw [line, ← h.jobs],
      by rw [line, ← h.nextJob], h.view.trans view, changes.governor.trans h.governor, changes.path.trans h.path⟩
  have settled (u : State) (sent : u = frameStart l count v) (own : (u.line l).sequence = (c.line l).sequence ∧
      (u.line l).newPeriod = (c.line l).newPeriod ∧ (u.line l).audioDue = (c.line l).audioDue ∧
      (u.line l).tx = (c.line l).tx) (totals : u.fault.totals = c.fault.totals)
      (decided : next = none → FrameDecided l x s (settleLine l u)) (kept : ∀ e, next = some e → u = c) :
      FrameGone l x count d payload isUnderrun audioDue next s (settleLine l (frameStart l count v)) := by
    rw [← sent]
    obtain ⟨sequence, newPeriod, audio, tx⟩ := own
    rw [line] at sequence newPeriod audio tx
    have field {α : Type} (f : Line → α) (same : ∀ y : Line, f y.settleOutput = f y) :
        f ((settleLine l u).line l) = f (u.line l) := by rw [settleLine_line, same]
    refine ⟨(field (·.sequence) fun _ => rfl).trans sequence, (field (·.newPeriod) fun _ => rfl).trans newPeriod,
      (field (·.audioDue) fun _ => rfl).trans audio, (field (·.tx) fun _ => rfl).trans tx, decided,
      fun e some' => ?_, totals.trans (by rw [fault])⟩
    obtain rfl := kept e some'
    refine ⟨?_, (field (·.labelSent) fun _ => rfl).trans standing.labelSent,
      (field (·.jobs) fun _ => rfl).trans standing.jobs, (field (·.list) fun _ => rfl).trans standing.list,
      standing.view.label, standing.governor, standing.view.report,
      .of_queueMade fun normal empty => (standing.queueMade normal empty).of_path rfl rfl⟩
    rw [field (·.next) fun _ => rfl, line, some']
  rcases next with _ | e
  · have started : frameStart l count v = decideFrame l c := if_neg (by simp [c, line])
    obtain ⟨kept, totals⟩ := decideFrame_line (l := l) c
    refine settled (decideFrame l c) started.symm ?_ totals (fun _ => standing.decided.settled) nofun
    exact ⟨by rw [kept], by rw [kept], by rw [kept], by rw [kept]⟩
  · have started : frameStart l count v = c := if_pos (by simp [c, line])
    exact settled c started.symm ⟨rfl, rfl, rfl, rfl⟩ rfl nofun fun _ _ => rfl

/-! ## The choice (R160) -/

/-- The frame sent is counted by its kind, and with it an underrun slot (R168, R204). -/
theorem FrameGone.counted {d : Decided} {payload : List Byte} {slot audioDue : Bool} {next : Option Decided}
    {isUnderrun : Prop} (h : FrameGone l x count d payload slot audioDue next s t) (under : slot = true ↔ isUnderrun)
    (f : TxFrame) (sent : (t.line l).tx = some f) :
    let u := s.fault.totals[l]
    let more (k : FrameKind) : Count32 := if f.kind = k then 1 else 0
    (s.isNormal = true → s.fault.state = .active → ∀ v, v = t.fault.totals[l] →
      v.fill = u.fill + more .fill ∧ v.audio = u.audio + more .audio ∧ v.live = u.live + more .live ∧
      v.skip = u.skip + more .skip ∧ v.label = u.label + more .label ∧ v.file = u.file + more .file ∧
      (isUnderrun → v.underruns = u.underruns + 1) ∧ (¬ isUnderrun → v.underruns = u.underruns) ∧
      v.violations = u.violations ∧ v.crcErrors = u.crcErrors ∧ v.losFrames = u.losFrames ∧
      v.goodFrames = u.goodFrames) ∧
    (∀ m : LineId, m ≠ l → t.fault.totals[m] = s.fault.totals[m]) ∧
    (s.isNormal = false ∨ s.fault.state ≠ .active → t.fault.totals = s.fault.totals) := by
  intro u more
  have kind : f.kind = d.kind := by
    cases h.tx.symm.trans sent
    rfl
  refine ⟨fun normal active v own => ?_, fun m other => ?_, fun not => ?_⟩
  · rw [h.totals, if_pos ⟨normal, active⟩, getElem_set_fin, if_pos rfl] at own
    subst own
    simp only [more, kind]
    rw [← under]
    cases slot <;> cases d.kind <;> simp [Totals.addUnderrun, Totals.addFrame, u]
  · rw [h.totals]
    split
    · exact (getElem_set_fin ..).trans (if_neg other)
    · rfl
  · rw [h.totals, if_neg]
    rintro ⟨normal, active⟩
    rcases not with passOnly | idle
    · rw [normal] at passOnly
      cases passOnly
    · exact idle active

theorem FrameGone.next_ne {d : Decided} {payload : List Byte} {isUnderrun audioDue : Bool} {next : Option Decided}
    (h : FrameGone l x count d payload isUnderrun audioDue next s t) : (t.line l).next ≠ none := by
  rcases next with _ | e
  · exact (h.decided rfl).next
  · rw [(h.kept e rfl).1]
    nofun

theorem setLine_line_self (l : LineId) (s : State) : s.setLine l (s.line l) = s := by
  unfold State.setLine State.line
  rw [vector_set_getElem_fin]

theorem Starting.started (h : Starting l x s v) : FrameStarted l x count s (settleLine l (frameStart l count v)) := by
  unfold FrameStarted
  intro audio waits kept sent
  have due : ((v.line l).audioDue = true ∧ (v.line l).applied.buses ≠ []) = audio := by rw [h.audioDue, h.applied]
  by_cases isAudio : audio
  · have choice : chooseFrame l count v = sendFrame l count
        (Decided.plain .audio x.applied.buses.length (s.mixer.held[(0 : Fin 16)]).frame (.ready []))
        (audioPayload s.mixer.held x.applied.buses) false
        (v.setLine l { v.line l with audioDue := false, next := x.next.bind Decided.keep }) := by
      unfold chooseFrame
      dsimp only
      rw [if_pos (due.mpr isAudio), h.applied, h.held, h.next]
      rfl
    have gone := h.gone choice
    have left (d : Decided) (next : x.next = some d) (stands : d.payload ≠ .failed) : x.next.bind Decided.keep = some d := by
      rw [next, Option.bind_some, Decided.keep, if_neg stands]
    refine ⟨gone.sequence, gone.newPeriod, gone.next_ne, fun _ => ⟨gone.audio, gone.tx, fun d next stands =>
      (gone.kept d (left d next stands)).1⟩, fun no => absurd isAudio no, fun lost => gone.decided ?_, fun ⟨d, next, stands, _⟩ =>
      (gone.kept d (left d next stands)).2, gone.counted ⟨nofun, fun ⟨no, _⟩ => absurd isAudio no⟩⟩
    rcases next : x.next with _ | d
    · rfl
    · rw [Option.bind_some, Decided.keep, if_pos]
      by_contra stands
      exact lost ⟨d, next, stands, .inl isAudio⟩
  · have stayNone (next : x.next = none) : chooseFrame l count v = sendFrame l count Decided.fill [] false v := by
      unfold chooseFrame
      dsimp only
      rw [if_neg (mt due.mp isAudio), h.next, next]
    have stayReady (d : Decided) (bytes : List Byte) (next : x.next = some d) (payload : d.payload = .ready bytes) :
        chooseFrame l count v = sendFrame l count d bytes false (v.setLine l { v.line l with next := none }) := by
      unfold chooseFrame
      dsimp only
      rw [if_neg (mt due.mp isAudio), h.next, next]
      dsimp only
      rw [payload]
    have stayFailed (d : Decided) (next : x.next = some d) (payload : d.payload = .failed) :
        chooseFrame l count v = sendFrame l count Decided.fill [] false (v.setLine l { v.line l with next := none }) := by
      unfold chooseFrame
      dsimp only
      rw [if_neg (mt due.mp isAudio), h.next, next]
      dsimp only
      rw [payload]
    have stayWaiting (d : Decided) (j : Nat) (next : x.next = some d) (payload : d.payload = .waiting j) :
        chooseFrame l count v = sendFrame l count Decided.fill [] true v := by
      unfold chooseFrame
      dsimp only
      rw [if_neg (mt due.mp isAudio), h.next, next]
      dsimp only
      rw [payload]
    have same (d : Decided) (payload : List Byte) (isUnderrun : Bool) (next : Option Decided)
        (choice : chooseFrame l count v =
          sendFrame l count d payload isUnderrun (v.setLine l { v.line l with next := next })) :
        FrameGone l x count d payload isUnderrun x.audioDue next s (settleLine l (frameStart l count v)) := by
      refine h.gone (choice.trans ?_)
      rw [← h.audioDue]
    have self : v.setLine l { v.line l with next := x.next } = v := by
      rw [← h.next]
      exact setLine_line_self l v
    have waiting (d : Decided) (next : x.next = some d) : waits ↔ ∃ j, d.payload = .waiting j :=
      ⟨fun ⟨e, j, some', payload⟩ => by cases next.symm.trans some'; exact ⟨j, payload⟩,
        fun ⟨j, payload⟩ => ⟨d, j, next, payload⟩⟩
    rcases next : x.next with _ | d
    · have gone := same Decided.fill [] false none (by rw [stayNone next, ← next, self])
      refine ⟨gone.sequence, gone.newPeriod, gone.next_ne, fun yes => absurd yes isAudio, fun _ => ⟨gone.audio, nofun,
        fun _ => gone.tx, nofun⟩, fun _ => gone.decided rfl, ?_, gone.counted ⟨nofun, ?_⟩⟩
      · rintro ⟨d, some', -⟩
        cases next.symm.trans some'
      · rintro ⟨-, d, j, some', -⟩
        cases next.symm.trans some'
    · rcases payload : d.payload with bytes | j | _
      · have gone := same d bytes false none (stayReady d bytes next payload)
        have calm : ¬ waits := by
          rw [waiting d next, payload]
          nofun
        refine ⟨gone.sequence, gone.newPeriod, gone.next_ne, fun yes => absurd yes isAudio, fun _ => ⟨gone.audio,
          fun e bytes' some' ready => ?_, fun lost => ?_, fun e j some' waits => ?_⟩, fun _ => gone.decided rfl, ?_,
          gone.counted ⟨nofun, fun ⟨_, yes⟩ => absurd yes calm⟩⟩
        · cases some'
          cases payload.symm.trans ready
          exact gone.tx
        · rcases lost with none' | ⟨e, some', failed⟩
          · cases none'
          · cases some'
            cases payload.symm.trans failed
        · cases some'
          cases payload.symm.trans waits
        · rintro ⟨e, some', -, yes | ⟨j, waits⟩⟩
          · exact absurd yes isAudio
          · cases next.symm.trans some'
            cases payload.symm.trans waits
      · have gone := same Decided.fill [] true (some d) (by rw [stayWaiting d j next payload, ← next, self])
        have held := gone.kept d rfl
        have iswaiting : waits := (waiting d next).mpr ⟨j, payload⟩
        refine ⟨gone.sequence, gone.newPeriod, gone.next_ne, fun yes => absurd yes isAudio, fun _ => ⟨gone.audio,
          fun e bytes' some' ready => ?_, fun _ => gone.tx, fun e i some' _ => ?_⟩, fun lost => ?_, fun _ => held.2,
          gone.counted ⟨fun _ => ⟨isAudio, iswaiting⟩, fun _ => rfl⟩⟩
        · cases some'
          cases payload.symm.trans ready
        · cases some'
          exact ⟨gone.tx, held.1⟩
        · exact absurd ⟨d, next, by rw [payload]; nofun, .inr ⟨j, payload⟩⟩ lost
      · have gone := same Decided.fill [] false none (stayFailed d next payload)
        have calm : ¬ waits := by
          rw [waiting d next, payload]
          nofun
        refine ⟨gone.sequence, gone.newPeriod, gone.next_ne, fun yes => absurd yes isAudio, fun _ => ⟨gone.audio,
          fun e bytes' some' ready => ?_, fun _ => gone.tx, fun e j some' waits => ?_⟩, fun _ => gone.decided rfl, ?_,
          gone.counted ⟨nofun, fun ⟨_, yes⟩ => absurd yes calm⟩⟩
        · cases some'
          cases payload.symm.trans ready
        · cases some'
          cases payload.symm.trans waits
        · rintro ⟨e, some', stands, -⟩
          cases next.symm.trans some'
          exact absurd payload stands

end Sys2Proof.Machine
end

section
/-! SUPPORT. The end of a frame and the audio boundary of a line (R152, R158, R159, R173). -/

set_option Elab.async false

namespace Sys2Proof.Machine

variable {s t u v w : State} {l : LineId} {x : Line} {count : Count32}

/-! ## The reads of a piece (R165, R166, log 54) -/

/-- The reads of a run of beats: each as long as its bounds allow, and together the beats in order. -/
theorem readBeats_covers (fuel beat count : Nat) (enough : count ≤ fuel) (inside : beat + count ≤ 2 ^ 33) :
    (∀ q ∈ readBeats fuel beat count, ∃ n, q.burst = .read n ∧ 1 ≤ n ∧ n ≤ 16 ∧ q.addr.toNat % 512 + n ≤ 512 ∧
      (n = 16 ∨ (q.addr.toNat + n) % 512 = 0 ∨ q.addr.toNat + n = beat + count)) ∧
    (readBeats fuel beat count).flatMap (fun q => (List.range q.burst.beats).map fun j => q.addr.toNat + j) =
      (List.range count).map fun j => beat + j := by
  induction fuel generalizing beat count with
  | zero =>
    obtain rfl : count = 0 := by omega
    exact ⟨nofun, rfl⟩
  | succ fuel ih =>
    rw [readBeats]
    by_cases none' : count = 0
    · subst none'
      exact ⟨nofun, rfl⟩
    · rw [if_neg none']
      dsimp only
      generalize taken : min 16 (min count (512 - beat % 512)) = n
      have below : beat % 512 < 512 := Nat.mod_lt _ (by decide)
      have address : (BitVec.ofNat 33 beat).toNat = beat := by
        rw [BitVec.toNat_ofNat, Nat.mod_eq_of_lt]
        omega
      obtain ⟨each, beats⟩ := ih (beat + n) (count - n) (by omega) (by omega)
      refine ⟨fun q mem => ?_, ?_⟩
      · rcases List.mem_cons.mp mem with rfl | later
        · refine ⟨n, rfl, by omega, by omega, ?_, ?_⟩
          · dsimp only
            rw [address]
            omega
          · dsimp only
            rw [address]
            omega
        · obtain ⟨k, read, low, high, page, longest⟩ := each q later
          refine ⟨k, read, low, high, page, longest.imp_right (Or.imp_right fun last => ?_)⟩
          omega
      · rw [List.flatMap_cons, beats]
        dsimp only
        rw [address]
        have split : count = n + (count - n) := by omega
        conv_rhs => rw [split, List.range_add, List.map_append, List.map_map]
        refine congrArg _ (List.map_congr_left fun j _ => ?_)
        exact Nat.add_assoc ..

/-! ## The end of a frame (R158, R173) -/

/-- The line without the frame, its list detached when it has ended, and the DONE offered (R173). -/
theorem endTransmission_left (l : LineId) (f : TxFrame) (s : State) :
    let x := s.line l
    let done := f.kind = .file ∧ f.last = true ∧ x.list.ending = true
    let e := endTransmission l f s
    e.line l = { x with tx := none, list := if done then x.list.detach else x.list } ∧
    e.report = (if done then offer l.val (.sendList .done 0) s else s).report := by
  intro x done e
  have own (y : Line) : (s.setLine l y).line l = y := State.setLine_line_same ..
  have ended : e = if done then listDone l (s.setLine l { x with tx := none }) else s.setLine l { x with tx := none } := by
    unfold e endTransmission
    dsimp only
    rw [own]
  by_cases isDone : done
  · rw [if_pos isDone] at ended
    rw [if_pos isDone, if_pos isDone, ended]
    unfold listDone State.setList
    dsimp only
    rw [State.setLine_line_same, offer_line, own]
    exact ⟨rfl, offer_report_congr _ _ rfl rfl rfl⟩
  · rw [if_neg isDone] at ended
    rw [if_neg isDone, if_neg isDone, ended, own]
    exact ⟨rfl, rfl⟩

theorem LabelView.of_changes (h : ChangesOnly [.report, .lines] s t) (report : t.report = u.report)
    (like : ChangesOnly [.report] s u) (carried : t.uplinkCarried = s.uplinkCarried) : LabelView u t := by
  have window : t.ownedWindow .label = u.ownedWindow .label := by
    rw [State.ownedWindow, State.ownedWindow, h.path, like.path]
  have carried' : t.uplinkCarried = u.uplinkCarried := by
    rw [carried, State.uplinkCarried, State.uplinkCarried, like.lines]
  exact ⟨h.label.trans like.label.symm, report, by rw [h.fault, like.fault], by rw [h.fault, like.fault],
    h.timing.trans like.timing.symm, window, carried'⟩

/-- A decision leaves a list with no descriptor loaded as it is. -/
theorem FrameDecided.list (h : FrameDecided l x s t) (none' : x.list.loaded = none) : (t.line l).list = x.list := by
  have fileOrFill (h : FileOrFillDecided l x s t) : (t.line l).list = x.list := by
    unfold FileOrFillDecided at h
    rw [none'] at h
    obtain ⟨-, -, list, -⟩ := h
    exact list
  unfold FrameDecided at h
  split at h
  · obtain ⟨-, -, -, list, -⟩ := h
    exact list
  · obtain ⟨-, -, h⟩ := h
    split at h
    · exact fileOrFill h
    · split at h
      · exact fileOrFill h
      · split at h
        · obtain ⟨-, -, list, -⟩ := h
          exact list
        · split at h
          · exact fileOrFill h
          · obtain ⟨-, -, list, -⟩ := h
            exact list
        · exact fileOrFill h

theorem FrameStarted.list (h : FrameStarted l x count s t) (none' : x.list.loaded = none) :
    (t.line l).list = x.list := by
  unfold FrameStarted at h
  obtain ⟨-, -, -, -, -, decided, kept, -⟩ := h
  by_cases stays : ∃ d, x.next = some d ∧ d.payload ≠ .failed ∧
      ((x.audioDue = true ∧ x.applied.buses ≠ []) ∨ ∃ j, d.payload = .waiting j)
  · obtain ⟨-, -, list, -⟩ := kept stays
    exact list
  · exact (decided stays).list none'

/-! ## What comes after the frame (R154, R156, R158) -/

theorem afterFrame_still (h : ((s.line l).function = .active ∧ (s.line l).applied.loopback = .remote) ∨
    (s.line l).function = .idle ∨ (s.line l).function = .halted) : afterFrame l s = s := by
  unfold afterFrame
  dsimp only
  rcases h with ⟨active, remote⟩ | idle | halted
  · rw [active]
    exact if_pos remote
  · rw [idle]
  · rw [halted]

theorem afterFrame_start (active : (s.line l).function = .active) (own : (s.line l).applied.loopback ≠ .remote) :
    afterFrame l s = frameStart l s.timing.audioCount s := by
  unfold afterFrame
  dsimp only
  rw [active]
  exact if_neg own

/-- A line that was HALTING is HALTED (R154). -/
theorem afterFrame_told (halting : (s.line l).function = .halting) : FunctionTold l .halted
    { s.line l with function := .halted, startPending := false, audioDue := false, tx := none } s (afterFrame l s) := by
  have enters : afterFrame l s = enterHalted l s := by
    unfold afterFrame
    dsimp only
    rw [halting]
  rw [enters]
  exact functionChanged_told ..

end Sys2Proof.Machine

open Sys2Proof Sys2Proof.Machine

/-- Settles O41: the frame leaves the line, and what comes in its place depends on the function state. -/
theorem frameEndStartsTheNextFrame : Obligations.FrameEndStartsTheNextFrame := by
  refine ⟨fun l f s tx whole running => ?ends, fun byte length inside => ?reads⟩
  case reads =>
    intro first count
    exact readBeats_covers count first count (Nat.le_refl _) (by
      have last : (byte + length + 7) / 8 ≤ 2 ^ 33 := by omega
      omega)
  case ends =>
    intro x done detached list ended
    let e := endTransmission l f s
    obtain ⟨line, report⟩ := endTransmission_left l f s
    have changes : ChangesOnly [.report, .lines] s e := endTransmission_changes ..
    have like : ChangesOnly [.report] s ended := by
      unfold ended
      split
      · exact offer_changes ..
      · exact .refl
    have carried : e.uplinkCarried = s.uplinkCarried :=
      uplinkCarried_of_line (endTransmission_others ..) (by rw [line]) (by rw [line])
    have view : LabelView ended e := .of_changes changes report like carried
    have start : Starting l { x with list := list } ended e := by
      refine ⟨⟨by rw [line], by rw [line], by rw [line]; rfl, by rw [line], by rw [line], view, ?_, ?_⟩, by rw [line],
        by rw [line], by rw [line], by rw [line], ?_, ?_, ?_⟩
      · exact changes.governor.trans like.governor.symm
      · exact changes.path.trans like.path.symm
      · rw [changes.mixer, like.mixer]
      · rw [changes.fault, like.fault]
      · rw [changes.fault, like.fault]
    let t := settleLine l (afterFrame l e)
    have run : exec (.frameEnd l) s = .next t := by
      have run : exec (.frameEnd l) s = execFrameEnd l s := rfl
      rw [run, execFrameEnd, tx]
      exact if_pos ⟨running, whole⟩
    have function' : (e.line l).function = x.function := by rw [line]
    have applied : (e.line l).applied = x.applied := by rw [line]
    have still (h : (x.function = .active ∧ x.applied.loopback = .remote) ∨ x.function = .idle ∨ x.function = .halted) :
        afterFrame l e = e := by
      rw [← function', ← applied] at h
      exact afterFrame_still h
    have stays (still : afterFrame l e = e) : (t.line l).tx = none ∧ (t.line l).next = x.next ∧
        (t.line l).sequence = x.sequence ∧ (t.line l).list = list ∧ t.report = ended.report := by
      have settled : t.line l = (e.line l).settleOutput := by
        unfold t
        rw [still, settleLine_line]
      rw [settled, line]
      refine ⟨rfl, rfl, rfl, rfl, ?_⟩
      unfold t
      rw [still]
      exact report
    have started (active : x.function = .active) (own : x.applied.loopback ≠ .remote) :
        FrameStarted l { x with list := list } s.timing.audioCount ended t := by
      have frame := start.started (count := e.timing.audioCount)
      have same : t = settleLine l (frameStart l e.timing.audioCount e) := by
        unfold t
        rw [afterFrame_start (function'.trans active) (applied ▸ own)]
      rw [same, ← changes.timing]
      exact frame
    refine ⟨t, run, ?_, ?_, fun isDone => ?_, fun active remote => ?_, fun halting => ?_, started⟩
    · have before : ChangesOnly [.path, .report, .mixer, .label, .governor, .lines, .fault] s (afterFrame l e) :=
        (afterFrame_changes l e).after (changes.mono (by decide))
      exact (settleLine_changes ..).after before
    · exact (settleLine_others ..).after ((afterFrame_others ..).after (endTransmission_others ..))
    · have detach : list = detached := if_pos isDone
      cases function : x.function with
      | active =>
        by_cases remote : x.applied.loopback = .remote
        · obtain ⟨-, -, -, kept, -⟩ := stays (still (.inl ⟨function, remote⟩))
          exact kept.trans detach
        · refine ((started function remote).list ?_).trans detach
          change list.loaded = none
          rw [detach]
      | halting =>
        have told := (afterFrame_told (function'.trans function)).line
        unfold t
        rw [settleLine_line, told, line]
        exact detach
      | idle =>
        obtain ⟨-, -, -, kept, -⟩ := stays (still (.inr (.inl function)))
        exact kept.trans detach
      | halted =>
        obtain ⟨-, -, -, kept, -⟩ := stays (still (.inr (.inr function)))
        exact kept.trans detach
    · exact stays (still (.inl ⟨active, remote⟩))
    · have told := afterFrame_told (function'.trans halting)
      have settled : t.line l = (({ e.line l with
          function := .halted, startPending := false, audioDue := false, tx := none } : Line).settleOutput).settleOutput := by
        unfold t
        rw [settleLine_line, told.line]
      rw [settled]
      have next : (e.line l).next = x.next := by rw [line]
      have sequence : (e.line l).sequence = x.sequence := by rw [line]
      have listed : (e.line l).list = list := congrArg Line.list line
      refine ⟨rfl, rfl, next, sequence, rfl, rfl, listed, fun good => ?_⟩
      have clips : e.ClipsGood := fun j c held => good j c (by rwa [changes.label] at held)
      exact (told.report clips).trans (offer_report_congr _ _ view.report view.mode view.timing)

end

section
/-! SUPPORT. The audio boundary of a line: its staged settings, and the frame start of step 3 (R152, R159). -/

set_option Elab.async false

namespace Sys2Proof.Machine

variable {s t u v w : State} {l : LineId} {x : Line} {count : Count32}

/-! ## The frame that a start sends (R178, R179) -/

theorem sentFrame_sequence (l : LineId) (x : Line) (count : Count32) (d : Decided) (payload : List Byte) :
    ofBE (slice (sentFrame l x count d payload).bytes 4 2) = x.sequence.toNat := by
  unfold sentFrame
  dsimp only
  rw [frameBytes_eq]
  have place (crc : List Byte) := slice_flatten
    (segments := frameSegments d.kind.code x.periodUnlocked d.isPartial d.key d.last l x.sequence count d.tag d.position
      payload ++ [crc])
    (k := 3) (offset := 4) (n := 2) (x := beBytes 2 x.sequence.toNat) rfl rfl (beBytes_length ..)
  rw [place, ofBE_beBytes]
  exact Nat.mod_eq_of_lt x.sequence.isLt

/-- A frame start leaves some frame of the line in transmission. -/
theorem FrameStarted.sent (h : FrameStarted l x count s t) :
    ∃ d payload, (t.line l).tx = some (sentFrame l x count d payload) := by
  unfold FrameStarted at h
  obtain ⟨-, -, -, audio, other, -⟩ := h
  by_cases isAudio : x.audioDue = true ∧ x.applied.buses ≠ []
  · obtain ⟨-, tx, -⟩ := audio isAudio
    exact ⟨_, _, tx⟩
  · obtain ⟨-, ready, fill, waiting⟩ := other isAudio
    rcases next : x.next with _ | d
    · exact ⟨_, _, fill (.inl next)⟩
    · rcases payload : d.payload with bytes | j | _
      · exact ⟨_, _, ready d bytes next payload⟩
      · exact ⟨_, _, (waiting d j next payload).1⟩
      · exact ⟨_, _, fill (.inr ⟨d, next, payload⟩)⟩

/-- A line keeps its settings, its function and the boundaries handed to it. -/
structure KeepsSettings (l : LineId) (s t : State) : Prop where
  applied : (t.line l).applied = (s.line l).applied
  staged : (t.line l).staged = (s.line l).staged
  function : (t.line l).function = (s.line l).function
  startPending : (t.line l).startPending = (s.line l).startPending
  periodUnlocked : (t.line l).periodUnlocked = (s.line l).periodUnlocked
  boundaries : (t.line l).boundaries = (s.line l).boundaries

theorem KeepsSettings.trans (h : KeepsSettings l s t) (k : KeepsSettings l t u) : KeepsSettings l s u :=
  ⟨k.applied.trans h.applied, k.staged.trans h.staged, k.function.trans h.function,
    k.startPending.trans h.startPending, k.periodUnlocked.trans h.periodUnlocked, k.boundaries.trans h.boundaries⟩

theorem sendFrame_keepsSettings (d : Decided) (payload : List Byte) (isUnderrun : Bool) (s : State) :
    KeepsSettings l s (sendFrame l count d payload isUnderrun s) := by
  have line := sendFrame_line (l := l) (count := count) d payload isUnderrun s
  constructor <;> rw [line]

theorem chooseFrame_keepsSettings (s : State) : KeepsSettings l s (chooseFrame l count s) := by
  have sent {y : Line} (d : Decided) (payload : List Byte) (isUnderrun : Bool)
      (own : KeepsSettings l s (s.setLine l y)) :
      KeepsSettings l s (sendFrame l count d payload isUnderrun (s.setLine l y)) :=
    own.trans (sendFrame_keepsSettings ..)
  have left (audioDue : Bool) (next : Option Decided) :
      KeepsSettings l s (s.setLine l { s.line l with audioDue := audioDue, next := next }) := by
    constructor <;> rw [State.setLine_line_same]
  unfold chooseFrame
  dsimp only
  split
  · exact sent _ _ _ (left ..)
  · split
    · exact sendFrame_keepsSettings ..
    · split
      · exact sent _ _ _ (left (s.line l).audioDue none)
      · exact sent _ _ _ (left (s.line l).audioDue none)
      · exact sendFrame_keepsSettings ..

theorem decideFrame_keepsSettings (s : State) : KeepsSettings l s (decideFrame l s) := by
  obtain ⟨line, -⟩ := decideFrame_line (l := l) s
  constructor <;> rw [line]

theorem settleLine_keepsSettings (s : State) : KeepsSettings l s (settleLine l s) := by
  constructor <;> rw [settleLine_line] <;> rfl

theorem frameStart_keepsSettings (s : State) : KeepsSettings l s (settleLine l (frameStart l count s)) := by
  have chosen := chooseFrame_keepsSettings (l := l) (count := count) s
  refine .trans ?_ (settleLine_keepsSettings _)
  unfold frameStart
  dsimp only
  split
  · exact chosen
  · exact chosen.trans (decideFrame_keepsSettings _)

/-! ## A staged group takes effect (R152) -/

theorem declareLos_line (s : State) : (declareLos l s).line l =
    { s.line l with receiver := { (s.line l).receiver.hunt with los := true, losDue := false } } := by
  have signal (before : Receiver) (t : State) : (signalEvent l before t).line l = t.line l :=
    congrArg (·[l]) (signalEvent_changes ..).lines
  have told (t : State) : (mixerLos l (giveLos l true t)).line l = t.line l := by
    have lines := (mixerLos_changes l (giveLos l true t)).lines.trans (giveLos_changes l true t).lines
    exact congrArg (·[l]) lines
  unfold declareLos
  dsimp only
  rw [signal]
  split
  · exact State.setLine_line_same ..
  · rw [told]
    exact State.setLine_line_same ..

/-- The line under its staged group, before the label unit is told. -/
def regrouped (g : LineSettings) (x : Line) : Line := ({ x with applied := g, staged := none } : Line).decideBits

theorem regrouped_eq (g : LineSettings) (x : Line) : regrouped g x =
    { x with
      applied := g, staged := none, receiver := (regrouped g x).receiver, retransmit := (regrouped g x).retransmit } :=
  rfl

theorem applyLine_of_none (h : (s.line l).staged = none) : applyLine l s = s := by
  unfold applyLine
  dsimp only
  split
  next => rfl
  next some' => cases h.symm.trans some'

theorem applyLine_of_some {g : LineSettings} (h : (s.line l).staged = some g) : applyLine l s =
    (let t := s.setLine l (regrouped g (s.line l))
      let t := if g.rate = .off ∧ (s.line l).applied.rate ≠ .off then declareLos l t else t
      if g.carriesLabels = (s.line l).applied.carriesLabels then t else postSettle t) := by
  unfold applyLine
  dsimp only
  split
  next none' => cases h.symm.trans none'
  next g' some' =>
    cases h.symm.trans some'
    rfl

/-- The line under the settings applied; without a rate class any more, LOS is declared (R152, R185). -/
theorem applyLine_line (s : State) :
    let x := s.line l
    let a := (applyLine l s).line l
    a = { x with
      applied := x.staged.getD x.applied, staged := none, receiver := a.receiver, retransmit := a.retransmit } ∧
    ((x.staged.getD x.applied).rate = .off → x.applied.rate ≠ .off → a.receiver.los = true ∧ a.receiver.sync = .hunt) := by
  intro x a
  rcases staged : x.staged with _ | g
  · have same : a = x := congrArg (State.line · l) (applyLine_of_none staged)
    rw [same]
    have left : x = { x with applied := x.applied, staged := none, receiver := x.receiver, retransmit := x.retransmit } := by
      rw [← staged]
    exact ⟨left, fun off on => absurd off on⟩
  · have settled (t : State) : (postSettle t).line l = t.line l := congrArg (·[l]) (postSettle_changes t).lines
    have a' : a = ((let t := s.setLine l (regrouped g x)
        if g.rate = .off ∧ x.applied.rate ≠ .off then declareLos l t else t).line l) := by
      unfold a
      rw [applyLine_of_some staged]
      dsimp only
      split
      · rfl
      · rw [settled]
    rw [a']
    dsimp only
    split
    next off =>
      rw [declareLos_line, State.setLine_line_same]
      exact ⟨rfl, fun _ _ => ⟨rfl, rfl⟩⟩
    next on =>
      rw [State.setLine_line_same]
      exact ⟨rfl, fun off was => absurd ⟨off, was⟩ on⟩

/-! ## The boundary (R159) -/

theorem setLine_setLine (l : LineId) (y z : Line) (s : State) : (s.setLine l y).setLine l z = s.setLine l z := by
  unfold State.setLine
  dsimp only
  rw [Vector.set_set]

/-- The label unit cannot tell lines apart that agree in function and carried labels. -/
theorem LabelView.setLine_like {y z : Line} (labels : z.applied.carriesLabels = y.applied.carriesLabels)
    (function : z.function = y.function) (s : State) : LabelView (s.setLine l y) (s.setLine l z) := by
  have twice := setLine_setLine l y z s
  have same : (s.setLine l y).line l = y := State.setLine_line_same ..
  have carried := uplinkCarried_setLine (s := s.setLine l y) (l := l) (x := z) (by rw [same, labels]) (by rw [same, function])
  rw [twice] at carried
  exact ⟨rfl, rfl, rfl, rfl, rfl, rfl, carried⟩

/-- What a staged group that keeps a rate class leaves for the frame start after it, the boundary taken. -/
theorem applyLine_start {g : LineSettings} (rest : List AudioBoundary) (staged : (s.line l).staged = some g)
    (rate : g.rate ≠ .off) :
    let told := if g.carriesLabels = (s.line l).applied.carriesLabels then s
      else postSettle (s.setLine l { s.line l with applied := g })
    let a := applyLine l (s.setLine l { s.line l with boundaries := rest })
    a.label = told.label ∧ a.report = told.report ∧ a.fault = told.fault ∧ a.fault.totals = s.fault.totals ∧
      a.fault.state = s.fault.state ∧ a.mixer = s.mixer := by
  intro told a
  let r := s.setLine l { s.line l with boundaries := rest }
  have own : r.line l = { s.line l with boundaries := rest } := State.setLine_line_same ..
  let y := regrouped g { s.line l with boundaries := rest }
  let t := s.setLine l y
  have a' : a = if g.carriesLabels = (s.line l).applied.carriesLabels then t else postSettle t := by
    have on : ¬ (g.rate = .off ∧ (s.line l).applied.rate ≠ .off) := fun ⟨off, _⟩ => rate off
    have staged' : (r.line l).staged = some g := by
      rw [own]
      exact staged
    have some' := applyLine_of_some staged'
    rw [own] at some'
    refine some'.trans ?_
    simp only [if_neg on]
    have twice : r.setLine l y = t := setLine_setLine ..
    rw [twice]
  rw [a']
  unfold told
  split
  · exact ⟨rfl, rfl, rfl, rfl, rfl, rfl⟩
  · let u := s.setLine l { s.line l with applied := g }
    have view : LabelView u t := .setLine_like (y := { s.line l with applied := g }) (z := y) rfl rfl s
    obtain ⟨label, report, classes, -, -, -, -⟩ := view.postSettle
    have fault : (postSettle t).fault = { s.fault with classes := (postSettle t).fault.classes } :=
      congrArg (fun w : State => w.fault) (postSettle_settled t)
    have fault' : (postSettle u).fault = { s.fault with classes := (postSettle u).fault.classes } :=
      congrArg (fun w : State => w.fault) (postSettle_settled u)
    have mixer : (postSettle t).mixer = s.mixer := (postSettle_changes t).mixer
    refine ⟨label, report, ?_, ?_, ?_, mixer⟩
    · rw [fault, fault', classes]
    · rw [fault]
    · rw [fault]

end Sys2Proof.Machine

open Sys2Proof Sys2Proof.Machine

/-- Settles O40: the staged settings take effect, and what comes after depends on whether a frame starts. -/
theorem lineTakesAnAudioBoundary : Obligations.LineTakesAnAudioBoundary := by
  intro l b rest s front running x g starts
  let r := s.setLine l { x with boundaries := rest }
  have own : r.line l = { x with boundaries := rest } := State.setLine_line_same ..
  let a := applyLine l r
  obtain ⟨grouped, los⟩ := applyLine_line (l := l) r
  have others : OtherLinesSame l s a := (applyLine_others ..).after (setLine_others ..)
  have changes : ChangesOnly [.report, .mixer, .label, .lines, .fault] s a :=
    (applyLine_changes l r).after ((State.setLine_changes ..).mono (by decide))
  let n := a.setLine l ((a.line l).newAudioPeriod b)
  have fresh : n.line l = (a.line l).newAudioPeriod b := State.setLine_line_same ..
  rw [own] at grouped los
  have run : exec (.lineAudioBoundary l) s = .next (lineBoundary l b r) := by
    have run : exec (.lineAudioBoundary l) s = execLineAudioBoundary l s := rfl
    rw [run, execLineAudioBoundary, front]
    dsimp only
    have still : (r.line l).stopped = false := by rw [own]; exact running
    rw [if_neg (by rw [still]; nofun)]
  have starts_iff : (n.line l).startsAtBoundary = true ↔ starts := by
    rw [fresh, grouped]
    simp only [Line.startsAtBoundary, Line.newAudioPeriod, Bool.and_eq_true, beq_iff_eq, bne_iff_ne, Option.isNone_iff_eq_none,
      and_assoc]
    rfl
  let v := n.setLine l { n.line l with startPending := false }
  have at_v : v.line l = { n.line l with startPending := false } := State.setLine_line_same ..
  let t := lineBoundary l b r
  have t_start (h : starts) : t = settleLine l (frameStart l b.count v) := by
    have yes := starts_iff.mpr h
    unfold t lineBoundary
    dsimp only
    rw [if_pos yes]
  have t_still (h : ¬ starts) : t = settleLine l n := by
    have no := mt starts_iff.mp h
    unfold t lineBoundary
    dsimp only
    rw [if_neg no]
  have settings : (t.line l).applied = g ∧ (t.line l).staged = none ∧ (t.line l).function = x.function ∧
      (t.line l).periodUnlocked = (b.state != .locked) ∧ (t.line l).boundaries = rest := by
    by_cases h : starts
    · have kept := frameStart_keepsSettings (l := l) (count := b.count) v
      rw [t_start h, kept.applied, kept.staged, kept.function, kept.periodUnlocked, kept.boundaries, at_v, fresh, grouped]
      exact ⟨rfl, rfl, rfl, rfl, rfl⟩
    · rw [t_still h, settleLine_line, fresh, grouped]
      exact ⟨rfl, rfl, rfl, rfl, rfl⟩
  obtain ⟨applied, staged, function, unlocked, boundaries⟩ := settings
  have start (h : starts) : ∃ u : State, (x.staged = none → u = s) ∧ u.governor = s.governor ∧ u.path = s.path ∧
      u.timing = s.timing ∧ u.mixer.held = s.mixer.held ∧ u.fault.totals = s.fault.totals ∧
      (x.staged ≠ none →
        let told := if g.carriesLabels = x.applied.carriesLabels then s
          else postSettle (s.setLine l { x with applied := g })
        u.label = told.label ∧ u.report = told.report ∧ u.fault = told.fault) ∧
      Starting l { x with applied := g, labelSent := false, periodUnlocked := b.state != .locked } u v := by
    have labelled : LabelView a v := by
      have carried := uplinkCarried_of_line (l := l) (s := a) (t := v) ((setLine_others ..).after (setLine_others ..))
        (by rw [at_v, fresh]; rfl) (by rw [at_v, fresh]; rfl)
      exact ⟨rfl, rfl, rfl, rfl, rfl, rfl, carried⟩
    have starting (u : State) (view : LabelView u a) (governor : s.governor = u.governor) (path : s.path = u.path)
        (held : a.mixer.held = u.mixer.held) (totals : a.fault.totals = u.fault.totals)
        (state : a.fault.state = u.fault.state) :
        Starting l { x with applied := g, labelSent := false, periodUnlocked := b.state != .locked } u v := by
      have line : v.line l = { (a.line l).newAudioPeriod b with startPending := false } := by rw [at_v, fresh]
      rw [grouped] at line
      exact ⟨⟨by rw [line]; rfl, by rw [line]; rfl, by rw [line]; rfl, by rw [line]; rfl, by rw [line]; rfl,
        view.trans labelled, changes.governor.trans governor, changes.path.trans path⟩, by rw [line]; rfl,
        by rw [line]; rfl, by rw [line]; rfl, by rw [line]; rfl, held, totals, state⟩
    by_cases staged : x.staged = none
    · have same : a = r := applyLine_of_none (by rw [own]; exact staged)
      have applied : g = x.applied := by
        unfold g
        rw [staged]
        rfl
      have view : LabelView s r := by
        have carried : r.uplinkCarried = s.uplinkCarried := uplinkCarried_setLine rfl rfl
        exact ⟨rfl, rfl, rfl, rfl, rfl, rfl, carried⟩
      refine ⟨s, fun _ => rfl, rfl, rfl, rfl, rfl, rfl, fun some' => absurd staged some', ?_⟩
      exact starting s (by rw [same]; exact view) rfl rfl (by rw [same]; rfl) (by rw [same]; rfl) (by rw [same]; rfl)
    · obtain ⟨g', staged'⟩ := Option.ne_none_iff_exists'.mp staged
      have group : g = g' := by
        unfold g
        rw [staged']
        rfl
      obtain ⟨-, -, rate, -⟩ := h
      have staged'' : (s.line l).staged = some g := by rw [group]; exact staged'
      obtain ⟨label, report, fault, totals, state, mixer⟩ := applyLine_start rest staged'' rate
      have held : a.mixer.held = s.mixer.held := congrArg Mixer.held mixer
      exact ⟨a, fun none' => absurd none' staged, changes.governor, changes.path, changes.timing, held, totals,
        fun _ => ⟨label, report, fault⟩,
        starting a (.refl a) changes.governor.symm changes.path.symm rfl rfl rfl⟩
  refine ⟨t, run, ?_, ?_, ?_, ?_, ?_, ?_, ?_, ?_, fun h => ?_, fun h => ?_⟩
  · exact (lineBoundary_changes ..).after ((State.setLine_changes ..).mono (by decide))
  · exact (lineBoundary_others ..).after (setLine_others ..)
  · exact boundaries
  · exact applied
  · exact staged
  · exact unlocked
  · exact function
  · intro off on
    have h : ¬ starts := fun ⟨_, _, rate, _⟩ => rate off
    rw [t_still h, settleLine_line, fresh]
    exact los off on
  · have kept := frameStart_keepsSettings (l := l) (count := b.count) v
    obtain ⟨u, same, governor, path, timing, held, totals, told, starting⟩ := start h
    have frame := starting.started (count := b.count)
    rw [← t_start h] at kept frame
    obtain ⟨d, payload, tx⟩ := frame.sent
    have ⟨sequence, newPeriod, _⟩ := frame
    refine ⟨?_, newPeriod, sequence, ⟨_, tx, rfl, sentFrame_sequence ..⟩, u, same, governor, path, timing, held, totals, told,
      frame⟩
    rw [kept.startPending, at_v]
  · rw [t_still h, settleLine_line, fresh, grouped]
    exact ⟨rfl, rfl, rfl, rfl, rfl, rfl⟩

end

section
/-! SUPPORT. The ring and uplink decisions one by one: 32 decisions settle either destination (R121, R122, R124). -/

set_option Elab.async false

namespace Sys2Proof.Machine

variable {s t u : State} {flag : Closing → Bool}

/-! ## Decisions come to an end -/

/-- A record of the list that still owes one destination, by the destination's done flag. -/
def Clip.owes (flag : Closing → Bool) : Clip → Bool := Clip.closedWith fun k => !flag k

/-- The records that still owe one destination. -/
def State.owing (flag : Closing → Bool) (s : State) : Finset (Fin 32) :=
  Finset.univ.filter fun i => (s.label.clips[i]).any (Clip.owes flag) = true

theorem State.mem_owing {i : Fin 32} : i ∈ s.owing flag ↔ (s.label.clips[i]).any (Clip.owes flag) = true := by
  simp [State.owing]

theorem State.owing_card_le (flag : Closing → Bool) (s : State) : (s.owing flag).card ≤ 32 :=
  Finset.card_le_univ _

theorem owing_card_lt {i : Fin 32} (owed : i ∈ s.owing flag) (done : i ∉ t.owing flag)
    (others : ∀ j, i ≠ j → t.label.clips[j] = s.label.clips[j]) : (t.owing flag).card < (s.owing flag).card := by
  refine Finset.card_lt_card ⟨fun j left => ?_, fun back => done (back owed)⟩
  have other : i ≠ j := by
    rintro rfl
    exact done left
  rwa [State.mem_owing, others j other, ← State.mem_owing] at left

/-- A decision that changes something settles a record, and one that changes nothing says so. -/
structure Decides (flag : Closing → Bool) (once : State → State × Bool) : Prop where
  stays : ∀ s, (once s).2 = false → (once s).1 = s
  settles : ∀ s, (once s).2 = true → ((once s).1.owing flag).card < (s.owing flag).card

theorem settle_of_false {once : State → State × Bool} (h : Decides flag once) (still : (once s).2 = false) (n : Nat) :
    settle once n s = s := by
  cases n with
  | zero => rfl
  | succ n =>
    have same := h.stays s still
    unfold settle
    rcases decided : once s with ⟨s', more⟩
    rw [decided] at still same
    obtain rfl : more = false := still
    exact same

theorem settle_of_true {once : State → State × Bool} (more : (once s).2 = true) (n : Nat) :
    settle once (n + 1) s = settle once n (once s).1 := by
  rw [settle]
  rcases decided : once s with ⟨s', more'⟩
  rw [decided] at more
  obtain rfl : more' = true := more
  rfl

/-- More decisions than records owing change nothing. -/
theorem settle_enough {once : State → State × Bool} (h : Decides flag once) {n : Nat} (enough : (s.owing flag).card ≤ n) :
    settle once (n + 1) s = settle once n s := by
  induction n generalizing s with
  | zero =>
    refine settle_of_false h ?_ 1
    by_contra more
    have fewer := h.settles s (by simpa using more)
    omega
  | succ n ih =>
    rcases more : (once s).2 with _ | _
    · rw [settle_of_false h more, settle_of_false h more]
    · have fewer := h.settles s more
      rw [settle_of_true more, settle_of_true more, ih (by omega)]

/-- A decision that changes something is followed by the decisions that stand open after it. -/
theorem settle_next {once : State → State × Bool} (h : Decides flag once) (more : (once s).2 = true) :
    settle once 32 s = settle once 32 (once s).1 := by
  have fewer := h.settles s more
  have all := s.owing_card_le flag
  rw [settle_of_true more, settle_enough h (n := 31) (by omega)]

/-! ## One decision (R121, R126) -/

theorem markPosted_eq {i : Fin 32} {c : Clip} {k : Closing} (held : s.label.clips[i] = some c) (closed : c.closing = some k)
    (f : Closing → Closing) : markPosted i f s =
      if (f k).ringDone = true ∧ (f k).uplinkDone = true then freeClip i s
      else setClip i (some { c with closing := some (f k) }) s := by
  have marked : c.mapClosing f = { c with closing := some (f k) } := by
    rw [Clip.mapClosing, closed]
    rfl
  have posted : (c.mapClosing f).posted = ((f k).ringDone && (f k).uplinkDone) := by
    rw [marked]
    rfl
  unfold markPosted
  rw [held]
  dsimp only
  rw [posted, marked]
  simp only [Bool.and_eq_true]

theorem setClip_clip (i j : Fin 32) (x : Option Clip) (s : State) :
    (setClip i x s).label.clips[j] = if j = i then x else s.label.clips[j] :=
  getElem_set_fin s.label.clips i j x

theorem markPosted_settles {i : Fin 32} {c : Clip} (held : s.label.clips[i] = some c) (owes : c.owes flag = true)
    {f : Closing → Closing} (done : ∀ k, flag (f k) = true) :
    ((markPosted i f s).owing flag).card < (s.owing flag).card := by
  refine owing_card_lt (i := i) ?_ ?_ fun j other => markPosted_clip_other other f s
  · rw [State.mem_owing, held]
    exact owes
  · unfold Clip.owes Clip.closedWith at owes
    rcases closed : c.closing with _ | k
    · rw [closed] at owes
      cases owes
    · rw [State.mem_owing, markPosted_eq held closed]
      split
      · obtain ⟨gone, -⟩ := freeClip_gone i s
        rw [gone]
        nofun
      · rw [setClip_clip, if_pos rfl, Option.any_some, Clip.owes, Clip.closedWith]
        simp [done]

theorem dropBadClip_settles {i : Fin 32} {c : Clip} (held : s.label.clips[i] = some c) (owes : c.owes flag = true) :
    ((dropBadClip i s).owing flag).card < (s.owing flag).card := by
  refine owing_card_lt (i := i) ?_ ?_ fun j other => dropBadClip_clip_other other s
  · rw [State.mem_owing, held]
    exact owes
  · obtain ⟨gone, -⟩ := dropBadClip_gone i s
    rw [State.mem_owing, gone]
    nofun

theorem Label.firstClosed_owes {x : Label} {i : Fin 32} (head : x.firstClosed (fun k => !flag k) = some i) :
    ∃ c, x.clips[i] = some c ∧ c.owes flag = true := by
  have found := List.find?_some head
  rcases held : x.clips[i] with _ | c
  · rw [held] at found
    cases found
  · rw [held] at found
    exact ⟨c, rfl, found⟩

/-- The decision on the uplink's head record. -/
theorem uplinkOnce_of_head {i : Fin 32} {c : Clip} (head : s.label.uplinkHead = some i) (held : s.label.clips[i] = some c) :
    uplinkOnce s =
      if c.parityBad then (dropBadClip i s, true)
      else if !c.released then (s, false)
      else if s.uplinkCarried then
        if s.label.uplink.length < Config.uplinkPlaces then
          (markPosted i (fun k => { k with uplinkDone := true })
            (s.setLabel { s.label with uplink := s.label.uplink ++ [c.bytes] }), true)
        else (s, false)
      else (markPosted i (fun k => { k with uplinkDone := true }) s, true) := by
  unfold uplinkOnce
  simp only [head, held]

theorem uplinkOnce_of_none (head : s.label.uplinkHead = none) : uplinkOnce s = (s, false) := by
  unfold uplinkOnce
  simp only [head]

/-- The decision on the ring's head record. -/
theorem ringOnce_of_head {i : Fin 32} {c : Clip} (head : s.label.ringHead = some i) (held : s.label.clips[i] = some c) :
    ringOnce s =
      if c.parityBad then (dropBadClip i s, true)
      else if c.released && s.label.inFlight != some (some i) then
        (markPosted i (fun k => { k with ringDone := true }) s, true)
      else (s, false) := by
  unfold ringOnce
  simp only [head, held]

theorem ringOnce_of_none (head : s.label.ringHead = none) : ringOnce s = (s, false) := by
  unfold ringOnce
  simp only [head]

theorem uplinkOnce_decides : Decides (·.uplinkDone) uplinkOnce := by
  have both (s : State) : ((uplinkOnce s).2 = false → (uplinkOnce s).1 = s) ∧ ((uplinkOnce s).2 = true →
      ((uplinkOnce s).1.owing (·.uplinkDone)).card < (s.owing (·.uplinkDone)).card) := by
    rcases head : s.label.uplinkHead with _ | i
    · rw [uplinkOnce_of_none head]
      exact ⟨fun _ => rfl, nofun⟩
    · obtain ⟨c, held, owes⟩ := Label.firstClosed_owes head
      rw [uplinkOnce_of_head head held]
      split
      · exact ⟨nofun, fun _ => dropBadClip_settles held owes⟩
      · split
        · exact ⟨fun _ => rfl, nofun⟩
        · split
          · split
            · let copied := s.setLabel { s.label with uplink := s.label.uplink ++ [c.bytes] }
              exact ⟨nofun, fun _ => markPosted_settles (s := copied) held owes fun _ => rfl⟩
            · exact ⟨fun _ => rfl, nofun⟩
          · exact ⟨nofun, fun _ => markPosted_settles held owes fun _ => rfl⟩
  exact ⟨fun s => (both s).1, fun s => (both s).2⟩

theorem ringOnce_decides : Decides (·.ringDone) ringOnce := by
  have both (s : State) : ((ringOnce s).2 = false → (ringOnce s).1 = s) ∧ ((ringOnce s).2 = true →
      ((ringOnce s).1.owing (·.ringDone)).card < (s.owing (·.ringDone)).card) := by
    rcases head : s.label.ringHead with _ | i
    · rw [ringOnce_of_none head]
      exact ⟨fun _ => rfl, nofun⟩
    · obtain ⟨c, held, owes⟩ := Label.firstClosed_owes head
      rw [ringOnce_of_head head held]
      split
      · exact ⟨nofun, fun _ => dropBadClip_settles held owes⟩
      · split
        · exact ⟨nofun, fun _ => markPosted_settles held owes fun _ => rfl⟩
        · exact ⟨fun _ => rfl, nofun⟩
  exact ⟨fun s => (both s).1, fun s => (both s).2⟩

/-! ## The head of either destination (R121) -/

/-- The first record of the list that owes a destination is its head. -/
theorem Label.firstClosed_of_first {x : Label} {before after : List (Fin 32)} {i : Fin 32} {c : Clip} {k : Closing}
    (order : x.order = before ++ i :: after)
    (done : ∀ j ∈ before, ∀ d y, x.clips[j] = some d → d.closing = some y → flag y = true)
    (held : x.clips[i] = some c) (closing : c.closing = some k) (owed : flag k = false) :
    x.firstClosed (fun k => !flag k) = some i := by
  refine List.find?_eq_some_iff_append.mpr ⟨?_, before, after, order, fun j mem => ?_⟩
  · simp only [held, Clip.closedWith, closing, owed, Bool.not_false]
  · rcases there : x.clips[j] with _ | d
    · rfl
    · rcases closed : d.closing with _ | y
      · simp only [Clip.closedWith, closed, Bool.not_false]
      · simp only [Clip.closedWith, closed, done j mem d y there closed, Bool.not_true, Bool.not_false]

theorem Label.firstClosed_of_done {x : Label}
    (done : ∀ i ∈ x.order, ∀ c k, x.clips[i] = some c → c.closing = some k → flag k = true) :
    x.firstClosed (fun k => !flag k) = none := by
  refine List.find?_eq_none.mpr fun j mem => ?_
  rcases there : x.clips[j] with _ | d
  · nofun
  · rcases closed : d.closing with _ | y
    · simp only [Clip.closedWith, closed]
      nofun
    · simp only [Clip.closedWith, closed, done j mem d y there closed]
      nofun

/-! ## Settling, one record at a time (R122, R124) -/

/-- A record dropped for its parity error, with its fault in NORMAL mode (R126, R200). -/
theorem dropBadClip_eq (i : Fin 32) (s : State) :
    let dropped : State := { s with label := { s.label with
      clips := s.label.clips.set i none
      order := s.label.order.filter fun j => j != i
      inFlight := if s.label.inFlight = some (some i) then some none else s.label.inFlight } }
    dropBadClip i s =
      if s.isNormal then faultedState 7 (.location 2 (BitVec.ofNat 8 i.val)) dropped else dropped := by
  intro dropped
  have same : dropBadClip i s = raiseFault .internalParity (.location 2 (BitVec.ofNat 8 i.val)) dropped := rfl
  rw [same]
  split
  next normal =>
    exact raiseFault_of_normal .internalParity _ normal
  next passOnly =>
    exact raiseFault_of_passOnly .internalParity _ (Bool.eq_false_iff.mpr passOnly)

theorem markPosted_uplink {i : Fin 32} {c : Clip} {k : Closing} (held : s.label.clips[i] = some c)
    (closed : c.closing = some k) : markPosted i (fun k => { k with uplinkDone := true }) s = { s with label :=
      if k.ringDone then { s.label with clips := s.label.clips.set i none, order := s.label.order.filter fun j => j != i }
      else { s.label with
        clips := s.label.clips.set i (some { c with closing := some { k with uplinkDone := true } }) } } := by
  rw [markPosted_eq held closed]
  rcases k.ringDone with _ | _
  · rw [if_neg (by simp)]
    rfl
  · rw [if_pos (by simp)]
    rfl

theorem markPosted_ring {i : Fin 32} {c : Clip} {k : Closing} (held : s.label.clips[i] = some c)
    (closed : c.closing = some k) : markPosted i (fun k => { k with ringDone := true }) s = { s with label :=
      if k.uplinkDone then { s.label with clips := s.label.clips.set i none, order := s.label.order.filter fun j => j != i }
      else { s.label with
        clips := s.label.clips.set i (some { c with closing := some { k with ringDone := true } }) } } := by
  rw [markPosted_eq held closed]
  rcases k.uplinkDone with _ | _
  · rw [if_neg (by simp)]
    rfl
  · rw [if_pos (by simp)]
    rfl

theorem uplinkSettle_of_running (running : s.label.stopped = false) : uplinkSettle s = settle uplinkOnce 32 s := by
  unfold uplinkSettle
  exact if_neg (by rw [running]; nofun)

theorem uplinkSettle_still (running : s.label.stopped = false) (still : (uplinkOnce s).2 = false) : uplinkSettle s = s := by
  rw [uplinkSettle_of_running running, settle_of_false uplinkOnce_decides still]

theorem uplinkSettle_next (running : s.label.stopped = false) (running' : t.label.stopped = false)
    (next : uplinkOnce s = (t, true)) : uplinkSettle s = uplinkSettle t := by
  rw [uplinkSettle_of_running running, uplinkSettle_of_running running', settle_next uplinkOnce_decides (by rw [next]), next]

theorem ringSettle_of_running (running : s.label.stopped = false) (window : s.ownedWindow .label = none) :
    ringSettle s = settle ringOnce 32 s := by
  unfold ringSettle
  rw [if_neg (by rw [running]; nofun), if_neg (by rw [window]; nofun)]

theorem ringSettle_still (running : s.label.stopped = false) (window : s.ownedWindow .label = none)
    (still : (ringOnce s).2 = false) : ringSettle s = s := by
  rw [ringSettle_of_running running window, settle_of_false ringOnce_decides still]

theorem ringSettle_next (running : s.label.stopped = false) (window : s.ownedWindow .label = none)
    (running' : t.label.stopped = false) (window' : t.ownedWindow .label = none) (next : ringOnce s = (t, true)) :
    ringSettle s = ringSettle t := by
  rw [ringSettle_of_running running window, ringSettle_of_running running' window',
    settle_next ringOnce_decides (by rw [next]), next]

end Sys2Proof.Machine
end

section
/-! SUPPORT. The label unit at a video boundary: counts, settings, marks and posting (R104, R107-R117). -/

set_option Elab.async false

namespace Sys2Proof.Machine

variable {s t u : State}

theorem uplinkCarried_iff (s : State) : s.uplinkCarried = true ↔
    ∃ l : LineId, (s.line l).applied.carriesLabels = true ∧ (s.line l).function ≠ .idle := by
  unfold State.uplinkCarried
  rw [List.any_eq_true]
  constructor
  · rintro ⟨x, mem, carried⟩
    obtain ⟨i, below, rfl⟩ := Vector.mem_iff_getElem.mp (Vector.mem_toList_iff.mp mem)
    have both : s.lines[i].applied.carriesLabels = true ∧ s.lines[i].function ≠ .idle := by simpa using carried
    exact ⟨⟨i, below⟩, both⟩
  · rintro ⟨l, carried⟩
    exact ⟨s.line l, Vector.mem_toList_iff.mpr (Vector.getElem_mem _), by simpa using carried⟩

theorem Clip.released_of_closed {c : Clip} {k : Closing} (closed : c.closing = some k) : c.released = (k.hold == 0) := by
  rw [Clip.released, Clip.closedWith, closed]

/-- One uplink decision after another (R124). -/
theorem uplinkSettle_steps (running : s.label.stopped = false) {before after : List (Fin 32)} {i : Fin 32} {c : Clip}
    {k : Closing} (order : s.label.order = before ++ i :: after) (held : s.label.clips[i] = some c)
    (closed : c.closing = some k) (owed : k.uplinkDone = false)
    (done : ∀ j ∈ before, ∀ d y, s.label.clips[j] = some d → d.closing = some y → y.uplinkDone = true) :
    let removed (x : Label) : Label :=
      { x with clips := x.clips.set i none, order := x.order.filter fun j => j != i }
    let settled (x : Label) : Label :=
      if k.ringDone then removed x
      else { x with clips := x.clips.set i (some { c with closing := some { k with uplinkDone := true } }) }
    (c.parityBad = true → uplinkSettle s = uplinkSettle (dropBadClip i s)) ∧
    (c.parityBad = false → k.hold ≠ 0 → uplinkSettle s = s) ∧
    (c.parityBad = false → k.hold = 0 → s.uplinkCarried = false →
      uplinkSettle s = uplinkSettle { s with label := settled s.label }) ∧
    (c.parityBad = false → k.hold = 0 → s.uplinkCarried = true → s.label.uplink.length < 8 →
      uplinkSettle s = uplinkSettle
        { s with label := settled { s.label with uplink := s.label.uplink ++ [c.bytes] } }) ∧
    (c.parityBad = false → k.hold = 0 → s.uplinkCarried = true → 8 ≤ s.label.uplink.length → uplinkSettle s = s) := by
  intro removed settled
  have head : s.label.uplinkHead = some i := Label.firstClosed_of_first (flag := (·.uplinkDone)) order done held closed owed
  have once := uplinkOnce_of_head head held
  have released := Clip.released_of_closed closed
  have stays (x : Label) (going : x.stopped = false) : (settled x).stopped = false := by
    unfold settled
    split <;> exact going
  refine ⟨fun bad => ?_, fun good hold => ?_, fun good hold none' => ?_, fun good hold carried room => ?_,
    fun good hold carried full => ?_⟩
  · rw [if_pos bad] at once
    exact uplinkSettle_next running (by rw [dropBadClip_label]; exact running) once
  · rw [if_neg (by rw [good]; nofun), if_pos (by simp [released, hold])] at once
    exact uplinkSettle_still running (by rw [once])
  · rw [if_neg (by rw [good]; nofun), if_neg (by simp [released, hold]), if_neg (by rw [none']; nofun),
      markPosted_uplink held closed] at once
    exact uplinkSettle_next running (stays _ running) once
  · have places : s.label.uplink.length < Config.uplinkPlaces := room
    let copied := s.setLabel { s.label with uplink := s.label.uplink ++ [c.bytes] }
    rw [if_neg (by rw [good]; nofun), if_neg (by simp [released, hold]), if_pos carried, if_pos places,
      markPosted_uplink (s := copied) held closed] at once
    exact uplinkSettle_next running (stays _ running) once
  · have places : ¬ s.label.uplink.length < Config.uplinkPlaces := Nat.not_lt.mpr full
    rw [if_neg (by rw [good]; nofun), if_neg (by simp [released, hold]), if_pos carried, if_neg places] at once
    exact uplinkSettle_still running (by rw [once])

/-- With no LABEL window, one ring decision after another (R122). -/
theorem ringSettle_steps (running : s.label.stopped = false) (window : s.ownedWindow .label = none)
    {before after : List (Fin 32)} {i : Fin 32} {c : Clip} {k : Closing} (order : s.label.order = before ++ i :: after)
    (held : s.label.clips[i] = some c) (closed : c.closing = some k) (owed : k.ringDone = false)
    (done : ∀ j ∈ before, ∀ d y, s.label.clips[j] = some d → d.closing = some y → y.ringDone = true) :
    let removed (x : Label) : Label :=
      { x with clips := x.clips.set i none, order := x.order.filter fun j => j != i }
    let settled (x : Label) : Label :=
      if k.uplinkDone then removed x
      else { x with clips := x.clips.set i (some { c with closing := some { k with ringDone := true } }) }
    (c.parityBad = true → ringSettle s = ringSettle (dropBadClip i s)) ∧
    (c.parityBad = false → k.hold ≠ 0 ∨ s.label.inFlight = some (some i) → ringSettle s = s) ∧
    (c.parityBad = false → k.hold = 0 → s.label.inFlight ≠ some (some i) →
      ringSettle s = ringSettle { s with label := settled s.label }) := by
  intro removed settled
  have head : s.label.ringHead = some i := Label.firstClosed_of_first (flag := (·.ringDone)) order done held closed owed
  have once := ringOnce_of_head head held
  have released := Clip.released_of_closed closed
  refine ⟨fun bad => ?_, fun good stands => ?_, fun good hold landed => ?_⟩
  · rw [if_pos bad] at once
    have same := (dropBadClip_settled i s).path
    exact ringSettle_next running window (by rw [dropBadClip_label]; exact running)
      (by rw [State.ownedWindow, same]; exact window) once
  · rw [if_neg (by rw [good]; nofun), if_neg (by rcases stands with hold | flies <;> simp_all)] at once
    exact ringSettle_still running window (by rw [once])
  · rw [if_neg (by rw [good]; nofun), if_pos (by simp [released, hold, landed]), markPosted_ring held closed] at once
    have stays : (settled s.label).stopped = false := by
      unfold settled
      split <;> exact running
    exact ringSettle_next running window stays window once

end Sys2Proof.Machine
end

section
/-! SUPPORT. What each mark does to the clip table (R108, R109, R113-R117). -/

set_option Elab.async false

namespace Sys2Proof.Machine

variable {s t u : State} {camera : Fin 8} {m : Capture} {b : VideoBoundary} {i : Fin 32} {c : Clip}

/-! ## Opening and closing (R108, R109, R114) -/

theorem Label.freeRecord_of_lowest {x : Label} (free : x.clips[i] = none) (lower : ∀ j : Fin 32, j < i → x.clips[j] ≠ none) :
    x.freeRecord = some i := by
  unfold Label.freeRecord
  rw [← Fin.find?_eq_find?_finRange, Fin.find?_eq_some_iff]
  exact ⟨by rw [free]; rfl, fun j below => by simpa [Option.isSome_iff_ne_none] using lower j below⟩

theorem Label.freeRecord_of_full {x : Label} (full : ∀ j : Fin 32, x.clips[j] ≠ none) : x.freeRecord = none := by
  refine List.find?_eq_none.mpr fun j _ => ?_
  simpa [Option.isSome_iff_ne_none] using full j

theorem tryOpen_of_free (split : Option Count16) (free : s.label.clips[i] = none)
    (lower : ∀ j : Fin 32, j < i → s.label.clips[j] ≠ none) :
    tryOpen camera m split b s = openClip i camera m split b s := by
  unfold tryOpen
  rw [Label.freeRecord_of_lowest free lower]

theorem tryOpen_of_full (split : Option Count16) (full : ∀ j : Fin 32, s.label.clips[j] ≠ none) :
    tryOpen camera m split b s = offer 0 (.clipRefused (1#8 <<< camera.val) 1) s := by
  unfold tryOpen
  rw [Label.freeRecord_of_full full]

theorem closeClip_of_held (held : s.label.clips[i] = some c) : closeClip i m s = { s with label := { s.label with
    order := s.label.order ++ [i]
    clips := s.label.clips.set i (some { c with
      overwritten := c.overwritten || m.overwritten
      closing := some
        { timecode := s.label.periodTimecode, videoCount := s.label.periodVideo, audioCount := m.audioCount,
          hold := s.label.applied.goodHold, ringDone := false, uplinkDone := false } }) } } := by
  unfold closeClip
  dsimp only
  rw [held]
  rfl

/-! ## Marks by their function (R113-R117) -/

theorem applyMark_split_of_none (none' : s.label.openOf camera = none) :
    applyMark .split camera m b s = tryOpen camera m none b s := by
  unfold applyMark markSplit
  rw [none']

theorem applyMark_in_of_none (none' : s.label.openOf camera = none) :
    applyMark .markIn camera m b s = tryOpen camera m none b s := by
  unfold applyMark markIn
  rw [none']

theorem applyMark_toggle_of_none (none' : s.label.openOf camera = none) :
    applyMark .toggle camera m b s = applyMark .markIn camera m b s := by
  unfold applyMark
  dsimp only
  rw [none']

theorem applyMark_out_of_none (none' : s.label.openOf camera = none) :
    applyMark .markOut camera m b s = strayMark s := by
  unfold applyMark markOut
  rw [none']

theorem applyMark_split_of_open (opened : s.label.openOf camera = some i) (held : s.label.clips[i] = some c) :
    applyMark .split camera m b s = tryOpen camera m (some c.id) b (closeClip i m s) := by
  unfold applyMark markSplit
  dsimp only
  rw [opened]
  dsimp only
  rw [held, Option.map_some]

theorem applyMark_in_of_open (opened : s.label.openOf camera = some i) :
    applyMark .markIn camera m b s = applyMark .split camera m b s := by
  unfold applyMark markIn
  dsimp only
  rw [opened]

theorem applyMark_out_of_open (opened : s.label.openOf camera = some i) :
    applyMark .markOut camera m b s = closeClip i m s := by
  unfold applyMark markOut
  rw [opened]

theorem applyMark_toggle_of_open (opened : s.label.openOf camera = some i) :
    applyMark .toggle camera m b s = applyMark .markOut camera m b s := by
  unfold applyMark
  dsimp only
  rw [opened]

/-! ## GOOD marks (R116) -/

theorem applyMark_good_of_open (opened : s.label.openOf camera = some i) (held : s.label.clips[i] = some c) :
    applyMark .good camera m b s = setClip i (some { c with good := true }) s := by
  unfold applyMark markGood
  dsimp only
  rw [opened]
  dsimp only
  rw [held, Option.map_some]

theorem Label.lastClosed_of_last {x : Label} {before after : List (Fin 32)} (held : x.clips[i] = some c)
    (own : c.camera = camera) (order : x.order = before ++ i :: after)
    (other : ∀ j ∈ after, ∀ d, x.clips[j] = some d → d.camera ≠ camera) : x.lastClosed camera = some i := by
  unfold Label.lastClosed
  refine List.find?_eq_some_iff_append.mpr ⟨?_, after.reverse, before.reverse, by rw [order]; simp, fun j mem => ?_⟩
  · rw [held]
    simpa using own
  · rcases there : x.clips[j] with _ | d
    · rfl
    · simpa using other j (List.mem_reverse.mp mem) d there

theorem Label.lastClosed_of_other {x : Label} (other : ∀ i ∈ x.order, ∀ d, x.clips[i] = some d → d.camera ≠ camera) :
    x.lastClosed camera = none := by
  refine List.find?_eq_none.mpr fun j mem => ?_
  rcases there : x.clips[j] with _ | d
  · nofun
  · simpa using other j (List.mem_reverse.mp mem) d there

theorem applyMark_good_of_closed (none' : s.label.openOf camera = none) (last : s.label.lastClosed camera = some i)
    (held : s.label.clips[i] = some c) : applyMark .good camera m b s =
      if c.closedWith (fun k => 0 < k.hold) then setClip i (some { c with good := true }) s else strayMark s := by
  unfold applyMark markGood
  simp only [none', last, held]

theorem applyMark_good_of_none (none' : s.label.openOf camera = none) (last : s.label.lastClosed camera = none) :
    applyMark .good camera m b s = strayMark s := by
  unfold applyMark markGood
  simp only [none', last]

theorem Clip.closedWith_hold_iff (c : Clip) :
    c.closedWith (fun k => 0 < k.hold) = true ↔ ∃ k, c.closing = some k ∧ 0 < k.hold := by
  unfold Clip.closedWith
  rcases closed : c.closing with _ | k <;> simp

end Sys2Proof.Machine
end

section
/-! SUPPORT. The steps of the label unit's video boundary, each as one change of the label unit (R104, R110-R113). -/

set_option Elab.async false

namespace Sys2Proof.Machine

variable {s t u : State}

/-! ## The faults of several bad records (R126, R200) -/

/-- An INTERNAL_PARITY fault for each of several records, in order. -/
def raiseBad (is : List (Fin 32)) (s : State) : State :=
  is.foldl (fun u i => raiseFault .internalParity (.location 2 (BitVec.ofNat 8 i.val)) u) s

theorem raiseFault_setLabel (k : FaultClass) (a : FailAddress) (x : Label) (s : State) :
    raiseFault k a (s.setLabel x) = (raiseFault k a s).setLabel x := by
  rcases normal : s.isNormal with _ | _
  · rw [raiseFault_of_passOnly k a normal, raiseFault_of_passOnly k a (s := s.setLabel x) normal]
  · rw [raiseFault_of_normal k a normal, raiseFault_of_normal k a (s := s.setLabel x) normal]
    rfl

theorem raiseBad_setLabel (is : List (Fin 32)) (x : Label) (s : State) :
    raiseBad is (s.setLabel x) = (raiseBad is s).setLabel x := by
  unfold raiseBad
  induction is generalizing s with
  | nil => rfl
  | cons i is ih => rw [List.foldl_cons, List.foldl_cons, raiseFault_setLabel, ih]

theorem raiseBad_eq (is : List (Fin 32)) (s : State) : raiseBad is s =
    if s.isNormal then is.foldl (fun u i => faultedState 7 (.location 2 (BitVec.ofNat 8 i.val)) u) s else s := by
  unfold raiseBad
  split
  next normal =>
    induction is generalizing s with
    | nil => rfl
    | cons i is ih =>
      have one := raiseFault_of_normal .internalParity (.location 2 (BitVec.ofNat 8 i.val)) normal
      have normal' := (raiseFault_isNormal .internalParity (.location 2 (BitVec.ofNat 8 i.val))).trans normal
      rw [List.foldl_cons, ih _ normal', one]
      rfl
  next passOnly =>
    induction is with
    | nil => rfl
    | cons i is ih =>
      rw [List.foldl_cons, raiseFault_of_passOnly _ _ (Bool.eq_false_iff.mpr passOnly)]
      exact ih

theorem raiseBad_changes (is : List (Fin 32)) (s : State) : ChangesOnly [.report, .fault] s (raiseBad is s) :=
  .foldl _ (fun _ _ => raiseFault_changes ..) ..

theorem raiseBad_isNormal (is : List (Fin 32)) (s : State) : (raiseBad is s).isNormal = s.isNormal := by
  unfold raiseBad
  induction is generalizing s with
  | nil => rfl
  | cons i is ih => rw [List.foldl_cons, ih, raiseFault_isNormal]

/-! ## The records read at step 1 (R110, R126, log 39) -/

/-- The clip table without several records. -/
@[irreducible] def clipsWithout (is : List (Fin 32)) (v : Vector (Option Clip) 32) : Vector (Option Clip) 32 :=
  Vector.ofFn fun i => if i ∈ is then none else v[i]

theorem clipsWithout_get (is : List (Fin 32)) (v : Vector (Option Clip) 32) (i : Fin 32) :
    (clipsWithout is v)[i] = if i ∈ is then none else v[i] := by
  unfold clipsWithout
  simp

/-- The label unit without several records. -/
def Label.without (is : List (Fin 32)) (x : Label) : Label :=
  { x with
    clips := clipsWithout is x.clips
    order := x.order.filter fun i => decide (i ∉ is)
    inFlight := x.inFlight.map fun i => i.bind fun i => if i ∈ is then none else some i }

theorem Label.without_nil (x : Label) : x.without [] = x := by
  have clips : clipsWithout [] x.clips = x.clips := by
    refine Vector.ext fun i below => ?_
    exact clipsWithout_get [] x.clips ⟨i, below⟩
  have order : (x.order.filter fun i => decide (i ∉ ([] : List (Fin 32)))) = x.order := by simp
  have inFlight : (x.inFlight.map fun i => i.bind fun i => if i ∈ ([] : List (Fin 32)) then none else some i) =
      x.inFlight := by
    rcases x.inFlight with _ | _ | i <;> rfl
  unfold Label.without
  rw [clips, order, inFlight]

theorem Label.without_cons (i : Fin 32) (is : List (Fin 32)) (x : Label) :
    x.without (i :: is) = Label.without is { x with
      clips := x.clips.set i none
      order := x.order.filter fun j => j != i
      inFlight := if x.inFlight = some (some i) then some none else x.inFlight } := by
  have clips : clipsWithout (i :: is) x.clips = clipsWithout is (x.clips.set i none) := by
    unfold clipsWithout
    refine congrArg Vector.ofFn (funext fun j => ?_)
    rw [getElem_set_fin]
    by_cases own : j = i
    · simp [own]
    · simp [own]
  have order : (x.order.filter fun j => decide (j ∉ i :: is)) =
      (x.order.filter fun j => j != i).filter fun j => decide (j ∉ is) := by
    rw [List.filter_filter]
    refine List.filter_congr fun j _ => ?_
    by_cases own : j = i
    · simp [own]
    · simp [own]
  have inFlight : (x.inFlight.map fun j => j.bind fun j => if j ∈ i :: is then none else some j) =
      (if x.inFlight = some (some i) then some none else x.inFlight).map fun j =>
        j.bind fun j => if j ∈ is then none else some j := by
    rcases x.inFlight with _ | _ | j
    · rfl
    · rfl
    · by_cases own : j = i
      · simp [own]
      · simp [own]
  unfold Label.without
  dsimp only
  rw [clips, order, inFlight]

theorem foldl_dropBadClip (is : List (Fin 32)) (s : State) :
    is.foldl (fun u i => dropBadClip i u) s = raiseBad is (s.setLabel (s.label.without is)) := by
  induction is generalizing s with
  | nil => rw [Label.without_nil]; rfl
  | cons i is ih =>
    let dropped : Label := { s.label with
      clips := s.label.clips.set i none
      order := s.label.order.filter fun j => j != i
      inFlight := if s.label.inFlight = some (some i) then some none else s.label.inFlight }
    have one : dropBadClip i s = (raiseFault .internalParity (.location 2 (BitVec.ofNat 8 i.val)) s).setLabel dropped := by
      have same : dropBadClip i s = raiseFault .internalParity (.location 2 (BitVec.ofNat 8 i.val)) (s.setLabel dropped) := rfl
      rw [same, raiseFault_setLabel]
    have all : raiseBad (i :: is) (s.setLabel (s.label.without (i :: is))) =
        raiseBad is (raiseFault .internalParity (.location 2 (BitVec.ofNat 8 i.val)) (s.setLabel (s.label.without (i :: is)))) :=
      rfl
    rw [List.foldl_cons, ih, one, all, raiseFault_setLabel, Label.without_cons]
    rfl

/-- Record i of the table holds a parity error. -/
def Label.badAt (x : Label) (i : Fin 32) : Bool := (x.clips[i]).any fun c => c.parityBad

theorem readClips_all (s : State) :
    let bad := (List.finRange 32).filter s.label.badAt
    readClips (fun _ => true) s = raiseBad bad (s.setLabel (s.label.without bad)) := by
  intro bad
  rw [← foldl_dropBadClip]
  have general (is : List (Fin 32)) (distinct : is.Nodup) (s : State) : is.foldl (fun s i =>
      match s.label.clips[i] with
      | some c => if (fun _ => true) c && c.parityBad then dropBadClip i s else s
      | none => s) s = (is.filter s.label.badAt).foldl (fun u i => dropBadClip i u) s := by
    induction is generalizing s with
    | nil => rfl
    | cons i is ih =>
      obtain ⟨fresh, distinct⟩ := List.nodup_cons.mp distinct
      rw [List.foldl_cons]
      rcases held : s.label.clips[i] with _ | c
      · have good : s.label.badAt i = false := by rw [Label.badAt, held]; rfl
        rw [List.filter_cons_of_neg (by rw [good]; nofun)]
        exact ih distinct s
      · rcases bad : c.parityBad with _ | _
        · have good : s.label.badAt i = false := by rw [Label.badAt, held]; exact bad
          rw [List.filter_cons_of_neg (by rw [good]; nofun)]
          simp only [bad, Bool.and_false, Bool.false_eq_true, if_false]
          exact ih distinct s
        · have ill : s.label.badAt i = true := by rw [Label.badAt, held]; exact bad
          have same : is.filter (dropBadClip i s).label.badAt = is.filter s.label.badAt := by
            refine List.filter_congr fun j mem => ?_
            have other : i ≠ j := by
              rintro rfl
              exact fresh mem
            rw [Label.badAt, Label.badAt, dropBadClip_clip_other other]
          rw [List.filter_cons_of_pos ill, List.foldl_cons, ← same]
          simp only [bad, Bool.and_true, if_true]
          exact ih distinct _
  exact general _ (List.nodup_finRange 32) s

/-! ## Step 1 (R111, R121) -/

/-- The clip table after the counts of step 1, without the records that hold a parity error. -/
@[irreducible] def Label.countedClips (x : Label) : Vector (Option Clip) 32 :=
  Vector.ofFn fun i => if x.badAt i then none else (x.clips[i]).map (countClip x.cameras)

theorem Label.countedClips_get (x : Label) (i : Fin 32) :
    x.countedClips[i] = if x.badAt i then none else (x.clips[i]).map (countClip x.cameras) := by
  unfold Label.countedClips
  simp

/-- The label unit after the counts of step 1. -/
def Label.counted (x : Label) : Label :=
  { x.without ((List.finRange 32).filter x.badAt) with
    clips := x.countedClips
    cameras := mapTable (fun x => { x with completed := false }) x.cameras }

theorem Label.countedClips_eq (x : Label) : x.countedClips =
    mapTable (fun c => c.map fun c => if (fun _ : Clip => true) c then countClip x.cameras c else c)
      (clipsWithout ((List.finRange 32).filter x.badAt) x.clips) := by
  refine Vector.ext fun i below => ?_
  refine (x.countedClips_get ⟨i, below⟩).trans (Eq.symm ((mapTable_get _ _ ⟨i, below⟩).trans ?_))
  rw [clipsWithout_get]
  have listed : (⟨i, below⟩ : Fin 32) ∈ (List.finRange 32).filter x.badAt ↔ x.badAt ⟨i, below⟩ = true := by simp
  rcases ill : x.badAt ⟨i, below⟩ with _ | _
  · simp [listed, ill]
  · simp [listed, ill]

theorem updateClips_setLabel (wanted : Clip → Bool) (f : Clip → Clip) (x : Label) (s : State) :
    updateClips wanted f (s.setLabel x) =
      s.setLabel { x with clips := mapTable (fun c => c.map fun c => if wanted c then f c else c) x.clips } := rfl

theorem setLabel_setLabel (x y : Label) (s : State) : (s.setLabel x).setLabel y = s.setLabel y := rfl

theorem countFrames_of_read {is : List (Fin 32)} {y : Label} (read : readClips (fun _ => true) s = raiseBad is (s.setLabel y)) :
    countFrames s = raiseBad is (s.setLabel { y with
      clips := mapTable (fun c => c.map fun c => if (fun _ : Clip => true) c then countClip y.cameras c else c) y.clips
      cameras := mapTable (fun x => { x with completed := false }) y.cameras }) := by
  have label (z : Label) (t : State) : (t.setLabel z).label = z := rfl
  unfold countFrames
  dsimp only
  rw [read, raiseBad_setLabel, updateClips_setLabel, setLabel_setLabel, raiseBad_setLabel, label, label]

theorem countFrames_eq (s : State) :
    countFrames s = raiseBad ((List.finRange 32).filter s.label.badAt) (s.setLabel s.label.counted) := by
  have read := readClips_all s
  dsimp only at read
  unfold Label.counted
  rw [countFrames_of_read read, Label.countedClips_eq]
  rfl

/-! ## Steps 2 and 3 (R104, R112) -/

/-- An OPEN clip is unlocked by a boundary that is not LOCKED (R112). -/
def unlockedAt (b : VideoBoundary) (c : Clip) : Clip :=
  { c with unlocked := c.unlocked || (c.closing.isNone && b.state != .locked) }

/-- The clip table after step 2. -/
@[irreducible] def unlockedClips (b : VideoBoundary) (v : Vector (Option Clip) 32) : Vector (Option Clip) 32 :=
  Vector.ofFn fun i => (v[i]).map (unlockedAt b)

theorem unlockedClips_get (b : VideoBoundary) (v : Vector (Option Clip) 32) (i : Fin 32) :
    (unlockedClips b v)[i] = (v[i]).map (unlockedAt b) := by
  unfold unlockedClips
  simp

theorem noteUnlocked_eq (b : VideoBoundary) (s : State) : noteUnlocked b s =
    s.setLabel { s.label with clips := unlockedClips b s.label.clips } := by
  unfold noteUnlocked
  split
  next locked =>
    have same : unlockedAt b = id := funext fun c => by simp [unlockedAt, locked]
    have clips : unlockedClips b s.label.clips = s.label.clips := by
      refine Vector.ext fun i below => ?_
      refine (unlockedClips_get b s.label.clips ⟨i, below⟩).trans ?_
      rw [same, Option.map_id]
      rfl
    rw [clips]
    rfl
  next unlocked =>
    have one : ∀ c, (if c.isOpen then { c with unlocked := true } else c : Clip) = unlockedAt b c := by
      intro c
      unfold unlockedAt Clip.isOpen
      rcases isOpen : c.closing.isNone with _ | _
      · simp
      · simp [unlocked]
    rw [updateClips_eq one]
    unfold unlockedClips
    rfl

theorem applyLabels_eq (s : State) : applyLabels s = { s with
    label := { s.label with applied := s.label.staged.getD s.label.applied, staged := none }
    timing := if s.timing.stopped then s.timing else { s.timing with
      selections := match s.label.staged with
        | some y => Vector.ofFn fun i => (y.inputs[i]).edge
        | none => s.timing.selections } } := by
  unfold applyLabels
  rcases staged : s.label.staged with _ | g
  · have same : ({ s.label with applied := s.label.applied, staged := none } : Label) = s.label := by rw [← staged]
    dsimp only [Option.getD_none]
    rw [same, ite_self]
  · rfl

end Sys2Proof.Machine
end

section
/-! SUPPORT. The marks of the FULL slots, and what a video boundary leaves of the label unit (R59-R62, R113). -/

set_option Elab.async false

namespace Sys2Proof.Machine

variable {s t u : State} {b : VideoBoundary}

/-! ## Marks and the slots they came from (R61, R113) -/

/-- The state with other capture slots. -/
def State.withSlots (s : State) (v : Vector (Option Capture) 7) : State :=
  { s with timing := { s.timing with slots := v } }

theorem offer_withSlots (object : Nat) (d : Detail) (v : Vector (Option Capture) 7) (s : State) :
    offer object d (s.withSlots v) = (offer object d s).withSlots v := by
  have same : (s.withSlots v).takesOffer object d = s.takesOffer object d := rfl
  unfold offer
  rw [same]
  split <;> rfl

theorem tryOpen_withSlots (camera : Fin 8) (m : Capture) (split : Option Count16) (v : Vector (Option Capture) 7) (s : State) :
    tryOpen camera m split b (s.withSlots v) = (tryOpen camera m split b s).withSlots v := by
  have same : (s.withSlots v).label.freeRecord = s.label.freeRecord := rfl
  unfold tryOpen
  rw [same]
  split
  · rfl
  · exact offer_withSlots ..

theorem closeClip_withSlots (i : Fin 32) (m : Capture) (v : Vector (Option Capture) 7) (s : State) :
    closeClip i m (s.withSlots v) = (closeClip i m s).withSlots v := by
  have same : (s.withSlots v).label = s.label := rfl
  unfold closeClip
  rw [same]
  dsimp only
  split <;> rfl

theorem markSplit_withSlots (camera : Fin 8) (m : Capture) (v : Vector (Option Capture) 7) (s : State) :
    markSplit camera m b (s.withSlots v) = (markSplit camera m b s).withSlots v := by
  have same : (s.withSlots v).label = s.label := rfl
  unfold markSplit
  rw [same]
  split
  · rw [closeClip_withSlots, tryOpen_withSlots]
  · exact tryOpen_withSlots ..

theorem markIn_withSlots (camera : Fin 8) (m : Capture) (v : Vector (Option Capture) 7) (s : State) :
    markIn camera m b (s.withSlots v) = (markIn camera m b s).withSlots v := by
  have same : (s.withSlots v).label = s.label := rfl
  unfold markIn
  rw [same]
  split
  · exact markSplit_withSlots ..
  · exact tryOpen_withSlots ..

theorem markOut_withSlots (camera : Fin 8) (m : Capture) (v : Vector (Option Capture) 7) (s : State) :
    markOut camera m (s.withSlots v) = (markOut camera m s).withSlots v := by
  have same : (s.withSlots v).label = s.label := rfl
  unfold markOut
  rw [same]
  split
  · exact closeClip_withSlots ..
  · rfl

theorem markGood_withSlots (camera : Fin 8) (v : Vector (Option Capture) 7) (s : State) :
    markGood camera (s.withSlots v) = (markGood camera s).withSlots v := by
  have same : (s.withSlots v).label = s.label := rfl
  unfold markGood
  rw [same]
  split
  · rfl
  · split
    · split
      · split <;> rfl
      · rfl
    · rfl

/-- A mark does not look at the slots. -/
theorem applyMark_withSlots (f : MarkFunction) (camera : Fin 8) (m : Capture) (v : Vector (Option Capture) 7) (s : State) :
    applyMark f camera m b (s.withSlots v) = (applyMark f camera m b s).withSlots v := by
  have same : (s.withSlots v).label = s.label := rfl
  unfold applyMark
  cases f with
  | none => rfl
  | markIn => exact markIn_withSlots ..
  | markOut => exact markOut_withSlots ..
  | toggle =>
    dsimp only
    rw [same]
    split
    · exact markOut_withSlots ..
    · exact markIn_withSlots ..
  | good => exact markGood_withSlots ..
  | split => exact markSplit_withSlots ..

/-! ## What marks leave of the label unit -/

/-- Of the label unit only the clip table, the close-order list, the next clip id and the stray count change. -/
structure MarksOnly (s t : State) : Prop where
  label : t.label = { s.label with
    clips := t.label.clips, order := t.label.order, nextId := t.label.nextId, stray := t.label.stray }

theorem MarksOnly.refl (s : State) : MarksOnly s s := ⟨rfl⟩

theorem MarksOnly.trans (h : MarksOnly s t) (k : MarksOnly t u) : MarksOnly s u := ⟨by rw [k.label, h.label]⟩

theorem tryOpen_marksOnly (camera : Fin 8) (m : Capture) (split : Option Count16) (s : State) :
    MarksOnly s (tryOpen camera m split b s) := by
  unfold tryOpen
  split
  · exact ⟨rfl⟩
  · exact ⟨by rw [(offer_changes ..).label]⟩

theorem closeClip_marksOnly (i : Fin 32) (m : Capture) (s : State) : MarksOnly s (closeClip i m s) := by
  unfold closeClip
  dsimp only
  split <;> exact ⟨rfl⟩

theorem markSplit_marksOnly (camera : Fin 8) (m : Capture) (s : State) : MarksOnly s (markSplit camera m b s) := by
  unfold markSplit
  split
  · exact (closeClip_marksOnly ..).trans (tryOpen_marksOnly ..)
  · exact tryOpen_marksOnly ..

theorem markIn_marksOnly (camera : Fin 8) (m : Capture) (s : State) : MarksOnly s (markIn camera m b s) := by
  unfold markIn
  split
  · exact markSplit_marksOnly ..
  · exact tryOpen_marksOnly ..

theorem markOut_marksOnly (camera : Fin 8) (m : Capture) (s : State) : MarksOnly s (markOut camera m s) := by
  unfold markOut
  split
  · exact closeClip_marksOnly ..
  · exact ⟨rfl⟩

theorem markGood_marksOnly (camera : Fin 8) (s : State) : MarksOnly s (markGood camera s) := by
  unfold markGood
  split
  · exact ⟨rfl⟩
  · split
    · split
      · split <;> exact ⟨rfl⟩
      · exact ⟨rfl⟩
    · exact ⟨rfl⟩

theorem applyMark_marksOnly (f : MarkFunction) (camera : Fin 8) (m : Capture) (s : State) :
    MarksOnly s (applyMark f camera m b s) := by
  unfold applyMark
  cases f with
  | none => exact .refl s
  | markIn => exact markIn_marksOnly ..
  | markOut => exact markOut_marksOnly ..
  | toggle =>
    dsimp only
    split
    · exact markOut_marksOnly ..
    · exact markIn_marksOnly ..
  | good => exact markGood_marksOnly ..
  | split => exact markSplit_marksOnly ..

/-! ## All the slots of a boundary (R61, R113) -/

/-- The marks of some capture slots, in order. -/
def marksOf (g : LabelSettings) (v : Vector (Option Capture) 7) (is : List (Fin 7)) :
    List (MarkFunction × Fin 8 × Capture) :=
  is.filterMap fun i => (v[i]).bind fun c =>
    if h : i.val < 6 then
      let input := g.inputs[(⟨i.val, h⟩ : Fin 6)]
      some (input.function, input.camera, c)
    else c.mark.map fun y => (y.1, y.2, c)

/-- Several marks, applied in order. -/
def applyMarks (b : VideoBoundary) (marks : List (MarkFunction × Fin 8 × Capture)) (s : State) : State :=
  marks.foldl (fun u y => applyMark y.1 y.2.1 y.2.2 b u) s

theorem applyMarks_withSlots (marks : List (MarkFunction × Fin 8 × Capture)) (v : Vector (Option Capture) 7) (s : State) :
    applyMarks b marks (s.withSlots v) = (applyMarks b marks s).withSlots v := by
  unfold applyMarks
  induction marks generalizing s with
  | nil => rfl
  | cons y ys ih => rw [List.foldl_cons, List.foldl_cons, applyMark_withSlots, ih]

theorem applyMarks_marksOnly (marks : List (MarkFunction × Fin 8 × Capture)) (s : State) :
    MarksOnly s (applyMarks b marks s) := by
  unfold applyMarks
  induction marks generalizing s with
  | nil => exact .refl s
  | cons y ys ih => exact (applyMark_marksOnly ..).trans (ih _)

theorem applyMarks_changes (marks : List (MarkFunction × Fin 8 × Capture)) (s : State) :
    ChangesOnly [.label, .report] s (applyMarks b marks s) :=
  .foldl _ (fun _ _ => applyMark_changes ..) ..

/-- A FULL slot's mark is applied and the slot is EMPTY. -/
theorem takeSlot_eq (running : s.timing.stopped = false) (v : Vector (Option Capture) 7) (i : Fin 7) :
    takeSlot b (s.withSlots v) i = (applyMarks b (marksOf s.label.applied v [i]) s).withSlots (v.set i none) := by
  have slot : (s.withSlots v).timing.slots[i] = v[i] := rfl
  have stopped : (s.withSlots v).timing.stopped = false := running
  have mark : marksOf s.label.applied v [i] = ((v[i]).bind fun c =>
      (s.label.markOf i c).map fun y => (y.1, y.2, c)).toList := by
    have each (c : Capture) : (s.label.markOf i c).map (fun y => (y.1, y.2, c)) =
        if h : i.val < 6 then
          let input := s.label.applied.inputs[(⟨i.val, h⟩ : Fin 6)]
          some (input.function, input.camera, c)
        else c.mark.map fun y => (y.1, y.2, c) := by
      unfold Label.markOf toFin
      by_cases below : i.val < 6
      · rw [dif_pos below, dif_pos below]
        rfl
      · rw [dif_neg below, dif_neg below]
    simp only [marksOf, each]
    rw [List.filterMap_cons, List.filterMap_nil]
    split
    next none' => rw [none']; rfl
    next y some' => rw [some']; rfl
  unfold takeSlot
  rw [slot, stopped, mark]
  rcases full : v[i] with _ | c
  · have empty : v.set i none = v := by
      rw [← full]
      exact vector_set_getElem_fin v i
    rw [empty]
    rfl
  · have same : (s.withSlots v).label.markOf i c = s.label.markOf i c := rfl
    have emptied : ({ s.withSlots v with
        timing := { (s.withSlots v).timing with slots := (s.withSlots v).timing.slots.set i none } } : State) =
      s.withSlots (v.set i none) := rfl
    dsimp only [Option.bind_some]
    rw [same, emptied]
    rcases s.label.markOf i c with _ | ⟨f, camera⟩
    · rfl
    · exact applyMark_withSlots ..

/-- Several slots become EMPTY. -/
def emptySlots (is : List (Fin 7)) (v : Vector (Option Capture) 7) : Vector (Option Capture) 7 :=
  is.foldl (fun (v : Vector (Option Capture) 7) (i : Fin 7) => v.set i none) v

theorem emptySlots_get (is : List (Fin 7)) (v : Vector (Option Capture) 7) (j : Fin 7) :
    (emptySlots is v)[j] = if j ∈ is then none else v[j] := by
  induction is generalizing v with
  | nil => rfl
  | cons i is ih =>
    refine (ih (v.set i none)).trans ?_
    rw [getElem_set_fin]
    by_cases own : j = i
    · simp [own]
    · simp [own]

theorem emptySlots_all (v : Vector (Option Capture) 7) :
    emptySlots (List.finRange 7) v = Vector.replicate 7 none := by
  refine Vector.ext fun i below => ?_
  have each := emptySlots_get (List.finRange 7) v ⟨i, below⟩
  rw [if_pos (List.mem_finRange _)] at each
  rw [Vector.getElem_replicate]
  exact each

theorem marksOf_set {g : LabelSettings} {is : List (Fin 7)} {i : Fin 7} (fresh : i ∉ is) (v : Vector (Option Capture) 7) :
    marksOf g (v.set i none) is = marksOf g v is := by
  refine List.filterMap_congr fun j mem => ?_
  have other : j ≠ i := by
    rintro rfl
    exact fresh mem
  rw [getElem_set_fin, if_neg other]

theorem foldl_takeSlot (running : s.timing.stopped = false) (v : Vector (Option Capture) 7) (is : List (Fin 7))
    (distinct : is.Nodup) : is.foldl (takeSlot b) (s.withSlots v) =
      (applyMarks b (marksOf s.label.applied v is) s).withSlots (emptySlots is v) := by
  induction is generalizing s v with
  | nil => rfl
  | cons i is ih =>
    obtain ⟨fresh, distinct⟩ := List.nodup_cons.mp distinct
    let u := applyMarks b (marksOf s.label.applied v [i]) s
    have running' : u.timing.stopped = false := by rw [(applyMarks_changes ..).timing]; exact running
    have applied : u.label.applied = s.label.applied := by rw [(applyMarks_marksOnly ..).label]
    have split : marksOf s.label.applied v (i :: is) = marksOf s.label.applied v [i] ++ marksOf s.label.applied v is :=
      List.filterMap_append (l := [i])
    rw [List.foldl_cons, takeSlot_eq running, ih running' (v.set i none) distinct, applied, marksOf_set fresh, split]
    unfold applyMarks
    rw [List.foldl_append]
    rfl

theorem foldl_takeSlot_stopped (stopped : s.timing.stopped = true) (is : List (Fin 7)) : is.foldl (takeSlot b) s = s := by
  have still (i : Fin 7) : takeSlot b s i = s := by
    unfold takeSlot
    rw [stopped]
    rcases s.timing.slots[i] with _ | c <;> rfl
  induction is with
  | nil => rfl
  | cons i is ih => rw [List.foldl_cons, still, ih]

/-! ## OPEN clips are not posted (R121) -/

/-- Every OPEN clip stands as it was. -/
def OpenKept (s t : State) : Prop :=
  ∀ (i : Fin 32) (c : Clip), s.label.clips[i] = some c → c.closing = none → t.label.clips[i] = some c

theorem OpenKept.trans (h : OpenKept s t) (k : OpenKept t u) : OpenKept s u :=
  fun i c held isOpen => k i c (h i c held isOpen) isOpen

theorem openKept_of_other {i : Fin 32} {c : Clip} (held : s.label.clips[i] = some c) (closed : c.closing ≠ none)
    (others : ∀ j, i ≠ j → t.label.clips[j] = s.label.clips[j]) : OpenKept s t := by
  intro j d held' isOpen
  have other : i ≠ j := by
    rintro rfl
    cases held.symm.trans held'
    exact closed isOpen
  rw [others j other]
  exact held'

theorem Clip.closed_of_owes {flag : Closing → Bool} {c : Clip} (owes : c.owes flag = true) : c.closing ≠ none := by
  intro isOpen
  rw [Clip.owes, Clip.closedWith, isOpen] at owes
  cases owes

theorem uplinkOnce_openKept (s : State) : OpenKept s (uplinkOnce s).1 := by
  rcases head : s.label.uplinkHead with _ | i
  · rw [uplinkOnce_of_none head]
    exact fun _ _ held _ => held
  · obtain ⟨c, held, owes⟩ := Label.firstClosed_owes head
    have closed := Clip.closed_of_owes owes
    rw [uplinkOnce_of_head head held]
    split
    · exact openKept_of_other held closed fun j other => dropBadClip_clip_other other s
    · split
      · exact fun _ _ held _ => held
      · split
        · split
          · let copied := s.setLabel { s.label with uplink := s.label.uplink ++ [c.bytes] }
            exact openKept_of_other held closed fun j other => markPosted_clip_other other _ copied
          · exact fun _ _ held _ => held
        · exact openKept_of_other held closed fun j other => markPosted_clip_other other _ s

theorem ringOnce_openKept (s : State) : OpenKept s (ringOnce s).1 := by
  rcases head : s.label.ringHead with _ | i
  · rw [ringOnce_of_none head]
    exact fun _ _ held _ => held
  · obtain ⟨c, held, owes⟩ := Label.firstClosed_owes head
    have closed := Clip.closed_of_owes owes
    rw [ringOnce_of_head head held]
    split
    · exact openKept_of_other held closed fun j other => dropBadClip_clip_other other s
    · split
      · exact openKept_of_other held closed fun j other => markPosted_clip_other other _ s
      · exact fun _ _ held _ => held

theorem postSettle_openKept (s : State) : OpenKept s (postSettle s) := by
  have same (s : State) : OpenKept s s := fun _ _ held _ => held
  have ring : OpenKept s (ringSettle s) := by
    unfold ringSettle
    split
    · exact same s
    · split
      · exact same s
      · exact settle_induction (motive := OpenKept) ringOnce same ringOnce_openKept .trans 32 s
  have uplink (s : State) : OpenKept s (uplinkSettle s) := by
    unfold uplinkSettle
    split
    · exact same s
    · exact settle_induction (motive := OpenKept) uplinkOnce same uplinkOnce_openKept .trans 32 s
  exact ring.trans (uplink _)

end Sys2Proof.Machine
end

section
/-! SUPPORT. The label unit's reaction to a video boundary as a whole (R110). -/

set_option Elab.async false

namespace Sys2Proof.Machine

variable {s t u : State} {b : VideoBoundary}

/-- Step 1, with the boundary taken and the faults of the records dropped (R111, R121, R126). -/
def countedAt (rest : List VideoBoundary) (s : State) : State :=
  raiseBad ((List.finRange 32).filter s.label.badAt) (s.setLabel { s.label.counted with boundaries := rest })

/-- Step 2 (R112). -/
def unlockedBy (b : VideoBoundary) (s : State) : State :=
  s.setLabel { s.label with clips := unlockedClips b s.label.clips }

/-- Steps 3 and the emptying of step 4 (R61, R104). -/
def appliedAt (g : LabelSettings) (staged : Option LabelSettings) (s : State) : State :=
  { s with
    label := { s.label with applied := g, staged := none }
    timing := if s.timing.stopped then s.timing else { s.timing with
      slots := Vector.replicate 7 none
      selections := match staged with
        | some y => Vector.ofFn fun i => (y.inputs[i]).edge
        | none => s.timing.selections } }

/-- Step 4 (R113). -/
def markedAt (b : VideoBoundary) (marks : List (MarkFunction × Fin 8 × Capture)) (s : State) : State :=
  if s.timing.stopped then s else applyMarks b marks s

theorem marked_eq (b : VideoBoundary) (s : State) :
    (List.finRange 7).foldl (takeSlot b) (applyLabels s) =
      markedAt b (marksOf (s.label.staged.getD s.label.applied) s.timing.slots (List.finRange 7))
        (appliedAt (s.label.staged.getD s.label.applied) s.label.staged s) := by
  rw [applyLabels_eq]
  unfold markedAt appliedAt
  rcases running : s.timing.stopped with _ | _
  · let a : State := { s with
      label := { s.label with applied := s.label.staged.getD s.label.applied, staged := none }
      timing := { s.timing with selections := match s.label.staged with
        | some y => Vector.ofFn fun i => (y.inputs[i]).edge
        | none => s.timing.selections } }
    have slots : a.withSlots s.timing.slots = a := rfl
    have stopped : a.timing.stopped = false := running
    have taken := foldl_takeSlot (b := b) stopped s.timing.slots (List.finRange 7) (List.nodup_finRange 7)
    rw [slots, ← applyMarks_withSlots, emptySlots_all] at taken
    have still : (a.withSlots (Vector.replicate 7 none)).timing.stopped = false := running
    simp only [Bool.false_eq_true, if_false]
    refine taken.trans (Eq.symm (if_neg ?_))
    rw [running]
    nofun
  · simp only [if_true]
    refine (foldl_takeSlot_stopped (s := { s with
      label := { s.label with applied := s.label.staged.getD s.label.applied, staged := none } }) running _).trans ?_
    exact (if_pos running).symm

/-! ## The whole reaction (R110) -/

theorem Label.counted_boundaries (rest : List VideoBoundary) (x : Label) :
    Label.counted { x with boundaries := rest } = { x.counted with boundaries := rest } := by
  have bad : Label.badAt { x with boundaries := rest } = x.badAt := rfl
  have clips : Label.countedClips { x with boundaries := rest } = x.countedClips := by
    unfold Label.countedClips
    rfl
  unfold Label.counted
  rw [bad, clips]
  rfl

theorem countedAt_eq (rest : List VideoBoundary) (s : State) :
    countFrames (s.setLabel { s.label with boundaries := rest }) = countedAt rest s := by
  let r := s.setLabel { s.label with boundaries := rest }
  have label : r.label = { s.label with boundaries := rest } := rfl
  have bad : r.label.badAt = s.label.badAt := rfl
  have counted := countFrames_eq r
  rw [bad, label, Label.counted_boundaries, setLabel_setLabel] at counted
  exact counted

theorem Label.counted_settings (x : Label) : x.counted.staged = x.staged ∧ x.counted.applied = x.applied ∧
    x.counted.stopped = x.stopped := ⟨rfl, rfl, rfl⟩

theorem countedAt_label (rest : List VideoBoundary) (s : State) :
    (countedAt rest s).label = { s.label.counted with boundaries := rest } := by
  unfold countedAt
  rw [raiseBad_setLabel]
  rfl

theorem countedAt_timing (rest : List VideoBoundary) (s : State) : (countedAt rest s).timing = s.timing :=
  (raiseBad_changes ..).timing

theorem LabelSettled.unit (h : LabelSettled s t) : t.label = { s.label with
    clips := t.label.clips, order := t.label.order, uplink := t.label.uplink, inFlight := t.label.inFlight } := by
  unfold LabelSettled at h
  exact congrArg State.label h

theorem labelBoundary_eq (b : VideoBoundary) (rest : List VideoBoundary) (s : State) :
    let g := s.label.staged.getD s.label.applied
    let marked := markedAt b (marksOf g s.timing.slots (List.finRange 7))
      (appliedAt g s.label.staged (unlockedBy b (postSettle (countedAt rest s))))
    labelBoundary b (s.setLabel { s.label with boundaries := rest }) =
      postSettle (marked.setLabel { marked.label with periodTimecode := b.timecode, periodVideo := b.count }) := by
  intro g marked
  let p := postSettle (countedAt rest s)
  have label : p.label.staged = s.label.staged ∧ p.label.applied = s.label.applied := by
    have settled := (postSettle_settled (countedAt rest s)).unit
    obtain ⟨staged, applied, -⟩ := Label.counted_settings s.label
    have same := countedAt_label rest s
    constructor
    · have one : p.label.staged = (countedAt rest s).label.staged := by unfold p; rw [settled]
      rw [one, same]
      exact staged
    · have one : p.label.applied = (countedAt rest s).label.applied := by unfold p; rw [settled]
      rw [one, same]
      exact applied
  obtain ⟨staged, applied⟩ := label
  have timing : p.timing = s.timing := (postSettle_changes _).timing.trans (countedAt_timing rest s)
  have step := marked_eq b (unlockedBy b p)
  have staged' : (unlockedBy b p).label.staged = s.label.staged := staged
  have applied' : (unlockedBy b p).label.applied = s.label.applied := applied
  have timing' : (unlockedBy b p).timing = s.timing := timing
  rw [staged', applied', timing'] at step
  unfold labelBoundary
  dsimp only
  rw [countedAt_eq, noteUnlocked_eq]
  have all : (List.finRange 7).foldl (takeSlot b) (applyLabels (unlockedBy b p)) = marked := step
  have unlocked : p.setLabel { p.label with clips := unlockedClips b p.label.clips } =
    unlockedBy b p := rfl
  rw [unlocked, all]

/-- Two label units alike but for their records, the close-order list, the next clip id, the stray count and what waits
for the two destinations. -/
structure RecordsOnly (x y : Label) : Prop where
  eq : y = { x with
    clips := y.clips, order := y.order, nextId := y.nextId, stray := y.stray, uplink := y.uplink, inFlight := y.inFlight }

theorem RecordsOnly.trans {x y z : Label} (h : RecordsOnly x y) (k : RecordsOnly y z) : RecordsOnly x z :=
  ⟨by rw [k.eq, h.eq]⟩

theorem LabelSettled.recordsOnly (h : LabelSettled s t) : RecordsOnly s.label t.label := ⟨by rw [h.unit]⟩

theorem MarksOnly.recordsOnly (h : MarksOnly s t) : RecordsOnly s.label t.label := ⟨by rw [h.label]⟩

/-- What the reaction leaves of the settings and the counts handed on (R104, R110). -/
theorem labelBoundary_left (b : VideoBoundary) (rest : List VideoBoundary) (s : State) :
    let g := s.label.staged.getD s.label.applied
    let t := labelBoundary b (s.setLabel { s.label with boundaries := rest })
    RecordsOnly { s.label with
      boundaries := rest, applied := g, staged := none, periodTimecode := b.timecode, periodVideo := b.count
      cameras := mapTable (fun x => { x with completed := false }) s.label.cameras } t.label ∧
    t.timing = (appliedAt g s.label.staged s).timing := by
  intro g t
  let p := postSettle (countedAt rest s)
  let a := appliedAt g s.label.staged (unlockedBy b p)
  let m := markedAt b (marksOf g s.timing.slots (List.finRange 7)) a
  let r := m.setLabel { m.label with periodTimecode := b.timecode, periodVideo := b.count }
  have whole : t = postSettle r := labelBoundary_eq b rest s
  have counted : RecordsOnly { s.label with
      boundaries := rest, cameras := mapTable (fun x => { x with completed := false }) s.label.cameras }
      (countedAt rest s).label := by
    rw [countedAt_label]
    exact ⟨rfl⟩
  have settled := counted.trans (postSettle_settled (countedAt rest s)).recordsOnly
  have applied : RecordsOnly { s.label with
      boundaries := rest, applied := g, staged := none
      cameras := mapTable (fun x => { x with completed := false }) s.label.cameras } a.label := by
    refine ⟨?_⟩
    change ({ p.label with clips := unlockedClips b p.label.clips, applied := g, staged := none } : Label) = _
    rw [settled.eq]
    rfl
  have marks : RecordsOnly a.label m.label ∧ m.timing = a.timing := by
    unfold m markedAt
    split
    · exact ⟨⟨rfl⟩, rfl⟩
    · exact ⟨(applyMarks_marksOnly ..).recordsOnly, (applyMarks_changes ..).timing⟩
  obtain ⟨marked, timing⟩ := marks
  have before := applied.trans marked
  have period : RecordsOnly { s.label with
      boundaries := rest, applied := g, staged := none, periodTimecode := b.timecode, periodVideo := b.count
      cameras := mapTable (fun x => { x with completed := false }) s.label.cameras } r.label := by
    refine ⟨?_⟩
    change ({ m.label with periodTimecode := b.timecode, periodVideo := b.count } : Label) = _
    rw [before.eq]
    rfl
  have timing' : p.timing = s.timing := (postSettle_changes _).timing.trans (countedAt_timing rest s)
  rw [whole]
  refine ⟨period.trans (postSettle_settled r).recordsOnly, (postSettle_changes r).timing.trans (timing.trans ?_)⟩
  change (appliedAt g s.label.staged (unlockedBy b p)).timing = _
  unfold appliedAt
  have same : (unlockedBy b p).timing = s.timing := timing'
  rw [same]

theorem countClip_of_open {c : Clip} (isOpen : c.closing = none) (cameras : Vector CameraState 8) :
    countClip cameras c = { c with
      recorded := if (cameras[c.camera]).completed then c.recorded + 1 else c.recorded
      dropped := if (cameras[c.camera]).completed then c.dropped else c.dropped + 1 } := by
  unfold countClip
  rw [isOpen]
  dsimp only
  split <;> rfl

theorem marksOf_empty {g : LabelSettings} {v : Vector (Option Capture) 7} (empty : ∀ i : Fin 7, v[i] = none)
    (is : List (Fin 7)) : marksOf g v is = [] := by
  refine List.filterMap_eq_nil_iff.mpr fun i _ => ?_
  rw [empty i]
  rfl

theorem markedAt_nil (b : VideoBoundary) (s : State) : markedAt b [] s = s := by
  unfold markedAt
  exact ite_self _

/-- With no parity error and no mark an OPEN clip counts the boundary and stays OPEN (R111, R112). -/
theorem labelBoundary_open {i : Fin 32} {c : Clip} (good : s.ClipsGood) (empty : ∀ i : Fin 7, s.timing.slots[i] = none)
    (held : s.label.clips[i] = some c) (isOpen : c.closing = none) (b : VideoBoundary) (rest : List VideoBoundary) :
    (labelBoundary b (s.setLabel { s.label with boundaries := rest })).label.clips[i] = some { c with
      recorded := if (s.label.cameras[c.camera]).completed then c.recorded + 1 else c.recorded
      dropped := if (s.label.cameras[c.camera]).completed then c.dropped else c.dropped + 1
      unlocked := c.unlocked || b.state != .locked } := by
  let d := countClip s.label.cameras c
  have stays : d.closing = none := by
    unfold d
    rw [countClip_of_open isOpen]
    exact isOpen
  have first : (countedAt rest s).label.clips[i] = some d := by
    rw [countedAt_label]
    refine (s.label.countedClips_get i).trans ?_
    rw [Label.badAt, held, Option.any_some, good i c held]
    rfl
  have second := postSettle_openKept _ i d first stays
  have third := unlockedClips_get b (postSettle (countedAt rest s)).label.clips i
  rw [second, Option.map_some] at third
  have fourth := postSettle_openKept ((appliedAt (s.label.staged.getD s.label.applied) s.label.staged
    (unlockedBy b (postSettle (countedAt rest s)))).setLabel { (appliedAt (s.label.staged.getD s.label.applied)
      s.label.staged (unlockedBy b (postSettle (countedAt rest s)))).label with
        periodTimecode := b.timecode, periodVideo := b.count }) i (unlockedAt b d) third stays
  have whole := labelBoundary_eq b rest s
  dsimp only at whole
  rw [marksOf_empty empty, markedAt_nil] at whole
  have opened : d.closing.isNone = true := by rw [stays]; rfl
  rw [whole, fourth, unlockedAt, opened]
  unfold d
  rw [countClip_of_open isOpen]
  rfl

end Sys2Proof.Machine
end

section
/-! SUPPORT. The label unit at a video boundary, settled (R104, R107-R117, R121, R124, R126). -/

set_option Elab.async false

namespace Sys2Proof.Machine

variable {s t u : State} {b : VideoBoundary}

theorem setLabel_isNormal (x : Label) (s : State) : (s.setLabel x).isNormal = s.isNormal := rfl

/-- The counts of step 1, record by record. -/
theorem Label.counted_eq {x : Label} {isBad : Fin 32 → Bool} {counted : Clip → Clip} (bads : x.badAt = isBad)
    (one : countClip x.cameras = counted) : x.counted = { x with
      clips := Vector.ofFn fun i => if isBad i then none else (x.clips[i]).map counted
      order := x.order.filter fun i => !isBad i
      cameras := Vector.ofFn fun k => { x.cameras[k] with completed := false }
      inFlight := x.inFlight.map fun i => i.bind fun i => if isBad i then none else some i } := by
  subst one
  have listed (i : Fin 32) : i ∈ (List.finRange 32).filter isBad ↔ isBad i = true := by simp
  have clips : x.countedClips = Vector.ofFn fun i => if isBad i then none else (x.clips[i]).map (countClip x.cameras) := by
    unfold Label.countedClips
    rw [bads]
  have order : (x.order.filter fun i => decide (i ∉ (List.finRange 32).filter isBad)) =
      x.order.filter fun i => !isBad i := by
    simp only [listed, Bool.not_eq_true, Bool.decide_eq_false]
  have inFlight : (x.inFlight.map fun i => i.bind fun i => if i ∈ (List.finRange 32).filter isBad then none else some i) =
      x.inFlight.map fun i => i.bind fun i => if isBad i then none else some i := by
    simp only [listed]
  unfold Label.counted Label.without mapTable
  rw [bads, clips, order, inFlight]

/-- Step 1 with its faults. -/
theorem countedAt_eq_faulted {isBad : Fin 32 → Bool} {counted : Clip → Clip} (rest : List VideoBoundary)
    (bads : s.label.badAt = isBad) (one : countClip s.label.cameras = counted) :
    let stepOne : State := { s with label := { s.label with
      boundaries := rest
      clips := Vector.ofFn fun i => if isBad i then none else (s.label.clips[i]).map counted
      order := s.label.order.filter fun i => !isBad i
      cameras := Vector.ofFn fun k => { s.label.cameras[k] with completed := false }
      inFlight := s.label.inFlight.map fun i => i.bind fun i => if isBad i then none else some i } }
    countedAt rest s = if s.isNormal then ((List.finRange 32).filter isBad).foldl
      (fun u i => faultedState 7 (.location 2 (BitVec.ofNat 8 i.val)) u) stepOne else stepOne := by
  unfold countedAt
  rw [raiseBad_eq, setLabel_isNormal, State.setLabel, Label.counted_eq bads one, bads]

theorem unlockedBy_eq (b : VideoBoundary) (s : State) : unlockedBy b s = { s with label := { s.label with
    clips := Vector.ofFn fun i => (s.label.clips[i]).map fun c =>
      { c with unlocked := c.unlocked || (c.closing.isNone && b.state != .locked) } } } := by
  unfold unlockedBy unlockedClips
  rfl

theorem appliedAt_eq {s p : State} (timing : p.timing = s.timing) (g : LabelSettings) (staged : Option LabelSettings) :
    appliedAt g staged p = { p with
      label := { p.label with applied := g, staged := none }
      timing := if s.timing.stopped then s.timing else { s.timing with
        slots := Vector.replicate 7 none
        selections := match staged with
          | some y => Vector.ofFn fun i => (y.inputs[i]).edge
          | none => s.timing.selections } } := by
  unfold appliedAt
  exact timing ▸ rfl

theorem appliedAt_stopped (g : LabelSettings) (staged : Option LabelSettings) (p : State) :
    (appliedAt g staged p).timing.stopped = p.timing.stopped := by
  unfold appliedAt
  dsimp only
  split
  next stopped => rfl
  next => rfl

theorem markedAt_eq {p : State} (timing : p.timing.stopped = s.timing.stopped)
    (marks : List (MarkFunction × Fin 8 × Capture)) : markedAt b marks p =
      if s.timing.stopped then p else marks.foldl (fun u y => applyMark y.1 y.2.1 y.2.2 b u) p := by
  unfold markedAt applyMarks
  rw [timing]

theorem RecordsOnly.handed {x y : Label} {g : LabelSettings} {rest : List VideoBoundary} (h : RecordsOnly { x with
      boundaries := rest, applied := g, staged := none, periodTimecode := b.timecode, periodVideo := b.count
      cameras := mapTable (fun x => { x with completed := false }) x.cameras } y) :
    y.boundaries = rest ∧ y.periodTimecode = b.timecode ∧ y.periodVideo = b.count ∧ y.applied = g ∧ y.staged = none ∧
      ∀ k : Fin 8, y.cameras[k] = { x.cameras[k] with completed := false } := by
  have cameras : y.cameras = mapTable (fun x => { x with completed := false }) x.cameras := by rw [h.eq]
  refine ⟨by rw [h.eq], by rw [h.eq], by rw [h.eq], by rw [h.eq], by rw [h.eq], fun k => ?_⟩
  rw [cameras, mapTable_get]

/-- What the timing unit is left with (R61, R62, R104). -/
theorem appliedAt_timing (g : LabelSettings) (staged : Option LabelSettings) (s : State) :
    let t := (appliedAt g staged s).timing
    (s.timing.stopped = true → t = s.timing) ∧
    (s.timing.stopped = false → (∀ i : Fin 7, t.slots[i] = none) ∧ (∀ i : Fin 6, t.selections[i] = match staged with
      | some y => (y.inputs[i]).edge
      | none => s.timing.selections[i])) := by
  intro t
  unfold t appliedAt
  refine ⟨fun stopped => if_pos stopped, fun ticking => ?_⟩
  dsimp only
  rw [if_neg (by rw [ticking]; nofun)]
  refine ⟨fun i => by simp, fun i => ?_⟩
  rcases staged with _ | y
  · rfl
  · simp

end Sys2Proof.Machine

open Sys2Proof Sys2Proof.Machine

/-- Settles O38: the reaction is that of the steps one by one, each mark by its function, and each destination decides
record by record. -/
theorem labelUnitCountsAndTakesMarks : Obligations.LabelUnitCountsAndTakesMarks := by
  refine ⟨fun us s₀ s b rest struck front running => ?boundary, fun camera m b s => ?marks, fun s running => ?uplink,
    fun s => rfl, fun s still => ?ringStill, fun s running window => ?ring⟩
  case boundary =>
    intro x g isBad counted stepOne faulted posted stepTwo stepThree marks marked
    have run : exec (.labelVideoBoundary us) s₀ =
        .next (labelBoundary b (s.setLabel { s.label with boundaries := rest })) := by
      have run : exec (.labelVideoBoundary us) s₀ = execLabelVideoBoundary us s₀ := rfl
      rw [run, execLabelVideoBoundary, ← struck]
      dsimp only
      rw [front]
      have still : (s.setLabel { s.label with boundaries := rest }).label.stopped = false := running
      exact if_neg (by rw [still]; nofun)
    have changes : ChangesOnly [.label, .report, .timing, .fault] s
        (labelBoundary b (s.setLabel { s.label with boundaries := rest })) :=
      (labelBoundary_changes b _).after ((State.setLabel_changes ..).mono (by decide))
    have opened (good : s.ClipsGood) (empty : ∀ i : Fin 7, s.timing.slots[i] = none) (i : Fin 32) (c : Clip)
        (held : s.label.clips[i] = some c) (isOpen : c.closing = none) :=
      labelBoundary_open good empty held isOpen b rest
    let p := postSettle (countedAt rest s)
    have timing : p.timing = s.timing := (postSettle_changes _).timing.trans (countedAt_timing rest s)
    have one : faulted = countedAt rest s := by
      have counts : countClip s.label.cameras = counted := funext fun c => by
        unfold counted countClip
        rcases c.closing with _ | k <;> rfl
      exact (countedAt_eq_faulted rest rfl counts).symm
    have settled : posted = p := congrArg postSettle one
    have two : stepTwo = unlockedBy b p := by
      rw [← settled]
      exact (unlockedBy_eq b posted).symm
    have timing' : stepTwo.timing = s.timing := by rw [two]; exact timing
    have three : stepThree = appliedAt g x.staged stepTwo := (appliedAt_eq timing' g x.staged).symm
    have stopped : stepThree.timing.stopped = s.timing.stopped := by rw [three, appliedAt_stopped, timing']
    have four : marked = markedAt b (marksOf g s.timing.slots (List.finRange 7)) stepThree := (markedAt_eq stopped marks).symm
    rw [three, two] at four
    have whole := labelBoundary_eq b rest s
    dsimp only at whole
    obtain ⟨left, timed⟩ := labelBoundary_left b rest s
    generalize labelBoundary b (s.setLabel { s.label with boundaries := rest }) = t
      at run changes opened whole left timed
    obtain ⟨boundaries, periodTimecode, periodVideo, applied, staged, cameras⟩ := left.handed
    obtain ⟨stays, taken⟩ := appliedAt_timing g x.staged s
    rw [← timed] at stays taken
    refine ⟨t, run, ?_, changes.mono (by decide), boundaries, periodTimecode, periodVideo, applied, staged, stays, taken,
      cameras, opened⟩
    rw [four]
    exact whole
  case marks =>
    intro opened refused stray lowestFree noneFree
    refine ⟨rfl, fun none' => ?unopened, fun i c isOpen held => ?opened⟩
    case unopened =>
      refine ⟨fun i ⟨free, lower⟩ => ?_, fun full => ?_, ?_, applyMark_toggle_of_none none', applyMark_out_of_none none',
        fun i c held own ⟨before, after, order, other⟩ => ?_, fun other => ?_⟩
      · rw [applyMark_in_of_none none', tryOpen_of_free none free lower]
        rfl
      · rw [applyMark_in_of_none none', tryOpen_of_full none full]
      · rw [applyMark_split_of_none none', applyMark_in_of_none none']
      · rw [applyMark_good_of_closed none' (Label.lastClosed_of_last held own order other) held]
        simp only [Clip.closedWith_hold_iff]
        rfl
      · exact applyMark_good_of_none none' (Label.lastClosed_of_other other)
    case opened =>
      intro closing shut closed
      have shuts : closeClip i m s = closed := closeClip_of_held held
      have split : applyMark .split camera m b s = tryOpen camera m (some c.id) b closed := by
        rw [← shuts]
        exact applyMark_split_of_open isOpen held
      have out : applyMark .markOut camera m b s = closed := (applyMark_out_of_open isOpen).trans shuts
      refine ⟨out, (applyMark_toggle_of_open isOpen).trans out, applyMark_in_of_open isOpen, fun j ⟨free, lower⟩ => ?_,
        fun full => ?_, applyMark_good_of_open isOpen held⟩
      · rw [split, tryOpen_of_free (some c.id) free lower]
        rfl
      · rw [split, tryOpen_of_full (some c.id) full]
  case uplink =>
    refine ⟨fun done => ?_, fun before after i c k order held closed owed done => ?_⟩
    · have none' : s.label.uplinkHead = none := Label.firstClosed_of_done done
      exact uplinkSettle_still running (by rw [uplinkOnce_of_none none'])
    · intro carried removed settled dropped
      have isCarried : s.uplinkCarried = true ↔ carried := uplinkCarried_iff s
      obtain ⟨bad, held', gone, copied, full⟩ := uplinkSettle_steps running order held closed owed done
      refine ⟨fun ill => ?_, held', fun good hold none' => ?_, fun good hold yes => ?_, fun good hold yes => ?_⟩
      · rw [bad ill, dropBadClip_eq]
      · exact gone good hold (by rwa [← isCarried, Bool.not_eq_true] at none')
      · exact copied good hold (isCarried.mpr yes)
      · exact full good hold (isCarried.mpr yes)
  case ringStill =>
    unfold ringSettle
    rcases still with stopped | window
    · exact if_pos stopped
    · rw [if_pos window, ite_self]
  case ring =>
    refine ⟨fun done => ?_, fun before after i c k order held closed owed done => ?_⟩
    · have none' : s.label.ringHead = none := Label.firstClosed_of_done done
      exact ringSettle_still running window (by rw [ringOnce_of_none none'])
    · intro removed settled dropped
      obtain ⟨bad, stands, gone⟩ := ringSettle_steps running window order held closed owed done
      refine ⟨fun ill => ?_, stands, gone⟩
      rw [bad ill, dropBadClip_eq]

end

section
/-! SUPPORT. What the mixer computes of a closing frame, in the manual's terms (R72, R73, R90-R94, R98). -/

set_option Elab.async false

namespace Sys2Proof.Machine

variable {s t u : State}

/-! ## The writes of a bus output entry (R98) -/

theorem containerBytes_toNat (x : Sample) : (x.signExtend 32).toNat = (x.toInt % 2 ^ 32).toNat := by
  have signed : (x.signExtend 32).toInt = x.toInt := BitVec.toInt_signExtend_of_le (by omega)
  rw [← signed, BitVec.toInt_eq_toNat_cond]
  have small := (x.signExtend 32).isLt
  split <;> omega

theorem containerBytes_length (x : Sample) : (containerBytes x).length = 4 := leBytes_length ..

theorem ofLE_append (as bs : List Byte) : ofLE (as ++ bs) = ofLE as + 256 ^ as.length * ofLE bs := by
  induction as with
  | nil => simp [ofLE]
  | cons a as ih => rw [List.cons_append, ofLE, ofLE, ih, List.length_cons, pow_succ]; ring

/-- The value of a sample in its container (R98). -/
def containerOf (xs : List Sample) (j : Nat) : Nat := ((xs[j]?.getD 0).toInt % 2 ^ 32).toNat

theorem wordsOfBytes_containers (xs : List Sample) (first n : Nat) (enough : first + 2 * n ≤ xs.length) :
    wordsOfBytes (((xs.drop first).take (2 * n)).flatMap containerBytes) = (List.range n).map fun j =>
      BitVec.ofNat 64 (containerOf xs (first + 2 * j) + 2 ^ 32 * containerOf xs (first + 2 * j + 1)) := by
  induction n generalizing first with
  | zero => simp [wordsOfBytes]
  | succ n ih =>
    have here : first < xs.length := by omega
    have next : first + 1 < xs.length := by omega
    have two : (xs.drop first).take (2 * (n + 1)) = xs[first] :: xs[first + 1] :: (xs.drop (first + 2)).take (2 * n) := by
      rw [List.drop_eq_getElem_cons here, List.drop_eq_getElem_cons next]
      rfl
    have value (j : Nat) (inside : j < xs.length) : ofLE (containerBytes xs[j]) = containerOf xs j := by
      have small := (xs[j].signExtend 32).isLt
      rw [containerBytes, ofLE_leBytes, Nat.mod_eq_of_lt (by simpa using small), containerBytes_toNat, containerOf,
        List.getElem?_eq_getElem inside, Option.getD_some]
    have word : ofLE (containerBytes xs[first] ++ containerBytes xs[first + 1]) =
        containerOf xs first + 2 ^ 32 * containerOf xs (first + 1) := by
      rw [ofLE_append, value first here, value (first + 1) next, containerBytes_length, show 256 ^ 4 = 2 ^ 32 from rfl]
    have rest := ih (first + 2) (by omega)
    rw [two, List.flatMap_cons, List.flatMap_cons, ← List.append_assoc,
      wordsOfBytes_cons (by rw [List.length_append, containerBytes_length, containerBytes_length]), word, rest,
      List.range_succ_eq_map, List.map_cons, List.map_map]
    refine congrArg₂ _ rfl (List.map_congr_left fun j _ => ?_)
    have place : first + 2 + 2 * j = first + 2 * (j + 1) := by omega
    simp only [Function.comp, place, Nat.succ_eq_add_one]

theorem fullWrite_containers (xs : List Sample) (first n : Nat) (enough : first + 2 * n ≤ xs.length) :
    fullWrite (((xs.drop first).take (2 * n)).flatMap containerBytes) = .write ((List.range n).map fun j =>
      { data := BitVec.ofNat 64 (containerOf xs (first + 2 * j) + 2 ^ 32 * containerOf xs (first + 2 * j + 1))
        enables := 0xFF }) := by
  rw [fullWrite, wordsOfBytes_containers xs first n enough, List.map_map]
  rfl

/-- A write of a bus output entry: half the samples of a bus, from its place in the window. -/
theorem BusEntry.request_eq (e : BusEntry) (w : WindowEntry) (k : Fin 32) :
    let bus : Fin 16 := ⟨k.val / 2, by omega⟩
    let first := 32 * (k.val % 2)
    let xs := e.samples[bus].toList
    e.request w k =
      { addr := beatOf (w.first + 2048 * bus.val + 256 * (e.frame.toNat % 8) + 4 * first)
        burst := .write ((List.range (if k.val % 2 = 0 then 16 else 8)).map fun j =>
          { data := BitVec.ofNat 64 (containerOf xs (first + 2 * j) + 2 ^ 32 * containerOf xs (first + 2 * j + 1))
            enables := 0xFF }) } := by
  intro bus first xs
  have length : xs.length = 48 := Vector.length_toList
  have unfolded : e.request w k =
      if k.val % 2 = 0 then
        { addr := beatOf (w.first + 2048 * bus.val + 256 * (e.frame.toNat % 8))
          burst := fullWrite ((xs.take 32).flatMap containerBytes) }
      else
        { addr := beatOf (w.first + 2048 * bus.val + 256 * (e.frame.toNat % 8) + 128)
          burst := fullWrite ((xs.drop 32).flatMap containerBytes) } := rfl
  rw [unfolded]
  rcases Nat.mod_two_eq_zero_or_one k.val with even | odd
  · have low := fullWrite_containers xs 0 16 (by omega)
    have start : first = 0 := by unfold first; omega
    rw [if_pos even, if_pos even, start]
    rw [List.drop_zero] at low
    rw [low]
    rfl
  · have high := fullWrite_containers xs 32 8 (by omega)
    have start : first = 32 := by unfold first; omega
    have all : (xs.drop 32).take (2 * 8) = xs.drop 32 := List.take_of_length_le (by rw [List.length_drop]; omega)
    rw [all] at high
    rw [if_neg (by omega), if_neg (by omega), start, high]

/-! ## Outputs, peaks and saturated samples of a bus (R90-R94) -/

/-- The row of a bus is bad, accumulator by accumulator. -/
def MixFrame.badRow (f : MixFrame) (bus : Fin 16) : Bool :=
  f.rowBad[bus] || (List.finRange 48).any fun j => (f.rows[bus][j]).parityBad

theorem vector_toList_eq {α : Type} {n : Nat} (v : Vector α n) : v.toList = (List.finRange n).map fun j => v[j] := by
  refine List.ext_getElem (by simp) fun i below _ => ?_
  simp

theorem MixFrame.busBad_eq (f : MixFrame) (bus : Fin 16) : f.busBad bus = f.badRow bus := by
  rw [MixFrame.busBad, MixFrame.badRow, vector_toList_eq, List.any_map]
  rfl

theorem MixFrame.busOutput_eq (f : MixFrame) (bus : Fin 16) : f.busOutput bus =
    Vector.ofFn fun j => if f.badRow bus then 0 else (f.rows[bus][j]).output := by
  rw [MixFrame.busOutput, MixFrame.busBad_eq]
  split
  · refine Vector.ext fun i below => ?_
    simp
  · rfl

theorem MixFrame.saturated_eq (f : MixFrame) (bus : Fin 16) : f.saturated bus =
    if f.badRow bus then 0 else ((List.finRange 48).filter fun j => (f.rows[bus][j]).saturates).length := by
  rw [MixFrame.saturated, MixFrame.busBad_eq, vector_toList_eq, List.filter_map, List.length_map]
  rfl

/-! ## Sets of buses and sources (R73, R93) -/

theorem flagSet_eq {n : Nat} {member : Fin n → Bool} {x : BitVec n} (h : ∀ i : Fin n, x.getLsbD i.val = member i) :
    flagSet n member = x := by
  refine BitVec.eq_of_getLsbD_eq fun i below => ?_
  have bit := h ⟨i, below⟩
  rw [bit, flagSet]
  simp [below]

theorem ne_allOnes_iff (x : BitVec 48) : (x != BitVec.allOnes 48) = (List.finRange 48).any fun j => !x.getLsbD j.val := by
  have ones (i : Nat) (below : i < 48) : (BitVec.allOnes 48).getLsbD i = true := by
    rw [BitVec.getLsbD_allOnes, decide_eq_true below]
  rw [Bool.eq_iff_iff, bne_iff_ne, List.any_eq_true]
  constructor
  · intro partly
    by_contra full
    refine partly (BitVec.eq_of_getLsbD_eq fun i below => ?_)
    have bit : x.getLsbD i = true := by
      by_contra clear
      exact full ⟨⟨i, below⟩, List.mem_finRange _, by simpa using clear⟩
    rw [bit, ones i below]
  · rintro ⟨j, -, clear⟩ rfl
    rw [ones j.val j.isLt] at clear
    cases clear

/-! ## Sources judged (R72) -/

theorem Source.judge_eq (x : Source) (arrivals : BitVec 48) : x.judge arrivals = { x with
    active := x.active && (arrivals != 0 || x.idleRun < 7)
    idleRun := if arrivals ≠ 0 then 0 else min (x.idleRun + 1) 8 } := by
  have limit : Config.idleLimit = 8 := rfl
  unfold Source.judge
  rw [limit]
  by_cases arrived : arrivals = 0
  · have none' : (arrivals != 0) = false := by simpa using arrived
    rw [none', if_neg Bool.false_ne_true, if_neg (not_not.mpr arrived)]
    by_cases idle : 8 ≤ x.idleRun + 1
    · rw [if_pos idle, Nat.min_eq_right idle, decide_eq_false (by omega : ¬ x.idleRun < 7)]
      simp
    · rw [if_neg idle, Nat.min_eq_left (by omega), decide_eq_true (by omega : x.idleRun < 7)]
      simp
  · have some' : (arrivals != 0) = true := by simpa using arrived
    rw [some', if_pos rfl, if_pos arrived]
    simp

end Sys2Proof.Machine
end

section
/-! SUPPORT. The close of a frame, step by step (R80, R92-R97). -/

set_option Elab.async false

namespace Sys2Proof.Machine

variable {s t u : State}

/-! ## Events and faults of the close (R73, R92, R93) -/

theorem raiseFault_of_mode {n : Bool} (normal : s.isNormal = n) (c : FaultClass) (a : FailAddress) :
    raiseFault c a s = if n then faultedState c.object a s else s := by
  subst normal
  split
  next normal => exact raiseFault_of_normal c a normal
  next passOnly => exact raiseFault_of_passOnly c a (Bool.eq_false_iff.mpr passOnly)

/-- The INTERNAL_PARITY faults of several bad buses. -/
def raiseBuses (is : List (Fin 16)) (s : State) : State :=
  is.foldl (fun u bus => raiseFault .internalParity (.location 1 (BitVec.ofNat 8 bus.val)) u) s

theorem parityFaults_eq (f : MixFrame) (s : State) :
    parityFaults f s = raiseBuses ((List.finRange 16).filter f.badRow) s := by
  unfold parityFaults raiseBuses
  rw [List.foldl_filter]
  simp only [MixFrame.busBad_eq]

theorem raiseBuses_isNormal (is : List (Fin 16)) (s : State) : (raiseBuses is s).isNormal = s.isNormal := by
  unfold raiseBuses
  induction is generalizing s with
  | nil => rfl
  | cons bus is ih => rw [List.foldl_cons, ih, raiseFault_isNormal]

theorem raiseBuses_of_mode {n : Bool} (normal : s.isNormal = n) (is : List (Fin 16)) : raiseBuses is s =
    is.foldl (fun u bus => if n then faultedState 7 (.location 1 (BitVec.ofNat 8 bus.val)) u else u) s := by
  unfold raiseBuses
  induction is generalizing s with
  | nil => rfl
  | cons bus is ih =>
    have one := raiseFault_of_mode normal .internalParity (.location 1 (BitVec.ofNat 8 bus.val))
    have normal' := (raiseFault_isNormal .internalParity (.location 1 (BitVec.ofNat 8 bus.val))).trans normal
    rw [List.foldl_cons, ih normal', one]
    rfl

theorem LabelView.raiseBuses (h : LabelView s t) (is : List (Fin 16)) : LabelView (raiseBuses is s) (raiseBuses is t) := by
  unfold Sys2Proof.Machine.raiseBuses
  induction is generalizing s t with
  | nil => exact h
  | cons bus is ih => exact ih (h.raiseFault ..)

theorem LabelView.offer (h : LabelView s t) (object : Nat) (d : Detail) : LabelView (offer object d s) (offer object d t) := by
  have left := offer_changes object d s
  have right := offer_changes object d t
  have window (u : State) : (Sys2Proof.Machine.offer object d u).ownedWindow .label = u.ownedWindow .label := by
    rw [State.ownedWindow, State.ownedWindow, (offer_changes object d u).path]
  have carried (u : State) : (Sys2Proof.Machine.offer object d u).uplinkCarried = u.uplinkCarried := by
    rw [State.uplinkCarried, State.uplinkCarried, (offer_changes object d u).lines]
  exact ⟨by rw [left.label, right.label, h.label], offer_report_congr object d h.report h.mode h.timing,
    by rw [left.fault, right.fault, h.classes], by rw [left.fault, right.fault, h.mode],
    by rw [left.timing, right.timing, h.timing], by rw [window, window, h.window], by rw [carried, carried, h.carried]⟩

theorem LabelView.setMixer (h : LabelView s t) (x : Mixer) : LabelView s (t.setMixer x) :=
  ⟨h.label, h.report, h.classes, h.mode, h.timing, h.window, h.carried⟩

theorem LabelView.saturationEvent (h : LabelView s t) (f : MixFrame) :
    LabelView (saturationEvent f s) (saturationEvent f t) := by
  unfold Sys2Proof.Machine.saturationEvent
  dsimp only
  split
  · exact h
  · exact h.offer ..

/-! ## The state before the frame is queued -/

/-- What the close tells before it queues the frame: parity faults, saturation and underrun (R73, R92, R93). -/
def closeEvents (f : MixFrame) (m : Mixer) (s : State) : State :=
  let c := saturationEvent f (raiseBuses ((List.finRange 16).filter f.badRow) s)
  if underrunSet m f = 0 then c else offer 0 (.audioUnderrun (underrunSet m f)) c

/-- The close before it queues the frame (R80 step 1, R72, R73, R92-R94). -/
def closing (s : State) : State :=
  let f := s.mixer.current
  judgeSources f (underrunEvent f (saturationEvent f (updateMeters f.outputs (parityFaults f s))))

theorem underrunEvent_of_sources {m : Mixer} (f : MixFrame) (sources : s.mixer.sources = m.sources) : underrunEvent f s =
    if underrunSet m f = 0 then s else offer 0 (.audioUnderrun (underrunSet m f)) s := by
  have same : underrunSet s.mixer f = underrunSet m f := by
    unfold underrunSet
    rw [sources]
  unfold underrunEvent
  dsimp only
  rw [same]

theorem closing_view (s : State) : LabelView (closeEvents s.mixer.current s.mixer s) (closing s) := by
  let f := s.mixer.current
  have mixer : (saturationEvent f (updateMeters f.outputs (parityFaults f s))).mixer.sources = s.mixer.sources := by
    have one := (saturationEvent_changes f (updateMeters f.outputs (parityFaults f s))).mixer
    have two := (parityFaults_changes f s).mixer
    rw [one]
    change (parityFaults f s).mixer.sources = _
    rw [two]
  unfold closing closeEvents
  dsimp only
  rw [underrunEvent_of_sources f mixer, parityFaults_eq]
  have base : LabelView (raiseBuses ((List.finRange 16).filter f.badRow) s)
      (updateMeters f.outputs (raiseBuses ((List.finRange 16).filter f.badRow) s)) := (LabelView.refl _).setMixer _
  have clipped := base.saturationEvent f
  refine LabelView.setMixer ?_ _
  split
  · exact clipped
  · exact clipped.offer ..

theorem closing_changes (s : State) : ChangesOnly [.report, .mixer, .fault] s (closing s) := by
  unfold closing
  dsimp only
  refine (judgeSources_changes ..).after ?_
  refine (underrunEvent_changes ..).after ?_
  refine (saturationEvent_changes ..).after ?_
  refine (updateMeters_changes ..).after ?_
  exact (parityFaults_changes ..).mono (by decide)

theorem closing_mixer (s : State) : (closing s).mixer = { s.mixer with
    meters := Vector.ofFn fun b => meterAfter s.mixer.meters[b] (framePeak s.mixer.current.outputs[b])
    sources := Vector.ofFn fun x => (s.mixer.sources[x]).judge s.mixer.current.arrivals[x] } := by
  let f := s.mixer.current
  let p := parityFaults f s
  let e := underrunEvent f (saturationEvent f (updateMeters f.outputs p))
  have first : p.mixer = s.mixer := (parityFaults_changes f s).mixer
  have second : e.mixer = (updateMeters f.outputs p).mixer :=
    (underrunEvent_changes ..).mixer.trans (saturationEvent_changes ..).mixer
  have meters : (updateMeters f.outputs p).mixer = { p.mixer with
    meters := Vector.ofFn fun b => meterAfter p.mixer.meters[b] (framePeak f.outputs[b]) } := rfl
  have judged : (judgeSources f e).mixer = { e.mixer with
    sources := Vector.ofFn fun x => (e.mixer.sources[x]).judge f.arrivals[x] } := rfl
  have whole : closing s = judgeSources f e := rfl
  rw [whole, judged, second, meters, first]

theorem closing_fault (passOnly : s.isNormal = false) : (closing s).fault = s.fault := by
  let f := s.mixer.current
  have parity : parityFaults f s = s := by
    rw [parityFaults_eq, raiseBuses_of_mode passOnly]
    simp only [Bool.false_eq_true, if_false]
    exact List.foldl_fixed ..
  have rest : ChangesOnly [.report, .mixer] (parityFaults f s) (closing s) := by
    unfold closing
    dsimp only
    refine (judgeSources_changes ..).after ?_
    refine (underrunEvent_changes ..).after ?_
    refine (saturationEvent_changes ..).after ?_
    exact (updateMeters_changes ..).mono (by decide)
  rw [rest.fault, parity]

end Sys2Proof.Machine
end

section
/-! SUPPORT. The close of a frame: the bus output queue, the lines and the peaks of the OPEN clips (R95-R99, R119). -/

set_option Elab.async false

namespace Sys2Proof.Machine

variable {s t u : State}

/-! ## Bus output entries and the writes presented (R97, R99) -/

/-- The bus output queue but for the writes presented. -/
def Mixer.entries (m : Mixer) : List BusEntry := m.busQueue.map fun e => { e with presented := 0 }

theorem notePresented_entries (m : Made) (s : State) : (notePresented m s).mixer.entries = s.mixer.entries := by
  unfold notePresented
  split
  · refine (List.map_map ..).trans (List.map_congr_left fun e _ => ?_)
    simp only [Function.comp]
    split <;> rfl
  · split <;> rfl
  · rfl

theorem makeRequest_entries (q : Fin 8) (m : Made) (s : State) : (makeRequest q m s).mixer.entries = s.mixer.entries := by
  unfold makeRequest
  split
  · dsimp only
    rcases presentNext_cases q (s.setQueue q { s.path.queues[q] with later := (s.path.queues[q]).later ++ [m] }) with
      h | ⟨m', rest, _, _, _, ⟨r, _, h⟩ | ⟨_, h⟩⟩
    · rw [h]
      rfl
    · rw [h, notePresented_entries]
      rfl
    · rw [h]
      rfl
  · rfl

theorem makeRequests_entries (q : Fin 8) (ms : List Made) (s : State) :
    (makeRequests q ms s).mixer.entries = s.mixer.entries := by
  unfold makeRequests
  induction ms generalizing s with
  | nil => rfl
  | cons m ms ih => rw [List.foldl_cons, ih, makeRequest_entries]

theorem makeRequests_of_waiting {q : Fin 8} {w : Waiting} {later : List Made} (ms : List Made) (normal : s.isNormal = true)
    (queue : s.path.queues[q] = { waiting := some w, later := later }) :
    makeRequests q ms s = s.setQueue q { waiting := some w, later := later ++ ms } := by
  induction ms generalizing s later with
  | nil =>
    have self : s.setQueue q s.path.queues[q] = s := by
      unfold State.setQueue
      rw [vector_set_getElem_fin]
    rw [List.append_nil, ← queue]
    exact self.symm
  | cons m ms ih =>
    have one := makeRequest_of_waiting (m := m) normal (by rw [queue])
    rw [queue] at one
    have step : makeRequests q (m :: ms) s = makeRequests q ms (makeRequest q m s) := rfl
    have next := ih (s := s.setQueue q { waiting := some w, later := later ++ [m] }) normal (setQueue_queue ..)
    rw [step, one, next, State.setQueue_setQueue, List.append_assoc]
    rfl

theorem presentNext_of_first {q : Fin 8} {m : Made} {rest : List Made} {r : MemRequest} (normal : s.isNormal = true)
    (queue : s.path.queues[q] = { waiting := none, later := m :: rest }) (request : s.requestOf m = some r) :
    presentNext q s = notePresented m (s.setQueue q
      { waiting := some { purpose := m.purpose, request := r, ahead := s.path.forward.length, stale := false }
        later := rest }) := by
  unfold presentNext
  simp only [queue, normal, if_true, request]

theorem makeRequests_of_first {q : Fin 8} {m : Made} {r : MemRequest} (ms : List Made) (normal : s.isNormal = true)
    (queue : s.path.queues[q] = { waiting := none, later := [] })
    (request : (s.setQueue q { waiting := none, later := [m] }).requestOf m = some r) :
    let first : Waiting := { purpose := m.purpose, request := r, ahead := s.path.forward.length, stale := false }
    makeRequests q (m :: ms) s = (notePresented m (s.setQueue q { waiting := some first, later := [] })).setQueue q
      { waiting := some first, later := ms } := by
  intro first
  let a := s.setQueue q { waiting := none, later := [m] }
  have one : makeRequest q m s = notePresented m (s.setQueue q { waiting := some first, later := [] }) := by
    have made : makeRequest q m s = presentNext q a := by
      unfold makeRequest
      rw [if_pos normal, queue]
      rfl
    have still : a.isNormal = true := normal
    have here : a.path.queues[q] = { waiting := none, later := [m] } := setQueue_queue ..
    have set : a.setQueue q { waiting := some first, later := [] } =
      s.setQueue q { waiting := some first, later := [] } := State.setQueue_setQueue ..
    rw [made, presentNext_of_first still here request]
    exact congrArg (notePresented m) set
  have queue' : (makeRequest q m s).path.queues[q] = { waiting := some first, later := [] } := by
    rw [one, notePresented_eq]
    exact setQueue_queue ..
  have normal' : (makeRequest q m s).isNormal = true := (makeRequest_isNormal ..).trans normal
  have rest := makeRequests_of_waiting ms normal' queue'
  rw [one, List.nil_append] at rest
  have step : makeRequests q (m :: ms) s = makeRequests q ms (makeRequest q m s) := rfl
  rw [step, one, rest]

theorem busWrites_eq (frame : Count32) : busWrites frame = { purpose := .busWrite frame 0, fixed := none } ::
    (List.finRange 32).tail.map fun k => { purpose := .busWrite frame k, fixed := none } := by
  have all : List.finRange 32 = 0 :: (List.finRange 32).tail := by
    rw [List.finRange_succ, List.tail_cons]
  unfold busWrites
  rw [all, List.map_cons, List.tail_cons]

theorem notePresented_busQueue {m : Made} {frame : Count32} {k : Fin 32} (purpose : m.purpose = .busWrite frame k)
    (s : State) : (notePresented m s).mixer.busQueue = s.mixer.busQueue.map fun e =>
      if e.frame == frame then { e with presented := e.presented + 1 } else e := by
  unfold notePresented
  rw [purpose]

/-- The first write of an entry is presented at once when the mixer has none waiting (R16, R98). -/
theorem makeRequests_busWrites {w : WindowEntry} {e : BusEntry} {frame : Count32} {before : List BusEntry}
    (normal : s.isNormal = true) (queue : s.path.queues[mixerQueue] = { waiting := none, later := [] })
    (window : s.ownedWindow .busOut = some w) (queued : s.mixer.busQueue = before ++ [e]) (own : e.frame = frame)
    (fresh : ∀ d ∈ before, d.frame ≠ frame) :
    (makeRequests mixerQueue (busWrites frame) s).mixer.busQueue = before ++ [{ e with presented := e.presented + 1 }] ∧
      (makeRequests mixerQueue (busWrites frame) s).path.queues[mixerQueue] =
        { waiting := some { purpose := .busWrite frame 0, request := e.request w 0,
                            ahead := s.path.forward.length, stale := false }
          later := (List.finRange 32).tail.map fun k => { purpose := .busWrite frame k, fixed := none } } := by
  subst own
  have found : s.mixer.busQueue.find? (fun y => y.frame == e.frame) = some e := by
    rw [queued, List.find?_append, List.find?_eq_none.mpr fun d mem => by simpa using fresh d mem]
    simp
  have request : (s.setQueue mixerQueue
      { waiting := none, later := [{ purpose := .busWrite e.frame 0, fixed := none }] }).requestOf
        { purpose := .busWrite e.frame 0, fixed := none } = some (e.request w 0) :=
    requestOf_busWrite rfl rfl window found
  generalize ms : ((List.finRange 32).tail.map fun k => ({ purpose := .busWrite e.frame k, fixed := none } : Made)) = rest
  rw [busWrites_eq, ms, makeRequests_of_first rest normal queue request]
  refine ⟨?_, setQueue_queue ..⟩
  have noted := notePresented_busQueue (m := { purpose := .busWrite e.frame 0, fixed := none }) rfl
    (s.setQueue mixerQueue
      { waiting := some { purpose := .busWrite e.frame 0, request := e.request w 0,
                          ahead := s.path.forward.length, stale := false }
        later := [] })
  refine noted.trans ?_
  change s.mixer.busQueue.map _ = _
  rw [queued, List.map_append, List.map_cons, List.map_nil, if_pos (by simp)]
  refine congrArg (· ++ _) ((List.map_congr_left fun d mem => ?_).trans (List.map_id _))
  exact if_neg (by simpa using fresh d mem)

theorem makeRequests_mixer (q : Fin 8) (ms : List Made) (s : State) : (makeRequests q ms s).mixer =
    { s.mixer with busQueue := (makeRequests q ms s).mixer.busQueue } :=
  congrArg (fun t : State => t.mixer) (makeRequests_eq q ms s)

theorem makeRequests_of_passOnly (q : Fin 8) (ms : List Made) (passOnly : s.isNormal = false) : makeRequests q ms s = s := by
  unfold makeRequests
  induction ms with
  | nil => rfl
  | cons m ms ih => rw [List.foldl_cons, makeRequest_of_passOnly q m passOnly, ih]

/-! ## The frame queued, or late (R97) -/

/-- The entry of a closed frame. -/
def placedEntry (frame : Count32) (out : BusFrame) : BusEntry :=
  { frame := frame, samples := out, total := 32, presented := 0, completed := 0 }

/-- The frame has been queued, or was late. -/
structure Queued (frame : Count32) (out : BusFrame) (s t : State) : Prop where
  mixer : t.mixer = { s.mixer with busQueue := t.mixer.busQueue }
  entries : t.mixer.entries = s.mixer.entries ++
    if (s.ownedWindow .busOut).isSome = true ∧ s.mixer.busQueue.length < 2 then [placedEntry frame out] else []
  first : ∀ w, s.ownedWindow .busOut = some w → s.mixer.busQueue.length < 2 → s.isNormal = true →
    s.path.queues[mixerQueue] = { waiting := none, later := [] } → (∀ e ∈ s.mixer.busQueue, e.frame ≠ frame) →
    t.mixer.busQueue = s.mixer.busQueue ++ [{ placedEntry frame out with presented := 1 }] ∧
      t.path.queues[mixerQueue] =
        { waiting := some { purpose := .busWrite frame 0, request := (placedEntry frame out).request w 0,
                            ahead := s.path.forward.length, stale := false }
          later := (List.finRange 32).tail.map fun k => { purpose := .busWrite frame k, fixed := none } }
  passOnly : s.isNormal = false → t.fault = s.fault

theorem queueOutput_queued (frame : Count32) (out : BusFrame) (s : State) : Queued frame out s (queueOutput frame out s) := by
  unfold queueOutput
  rcases window : s.ownedWindow .busOut with _ | w
  · exact ⟨rfl, by simp [window], fun w here => (by cases window.symm.trans here), fun _ => rfl⟩
  · dsimp only
    by_cases room : s.mixer.busQueue.length < 2
    · rw [if_pos room]
      let a := s.setMixer { s.mixer with busQueue := s.mixer.busQueue ++ [placedEntry frame out] }
      change Queued frame out s (makeRequests mixerQueue (busWrites frame) a)
      refine ⟨makeRequests_mixer mixerQueue (busWrites frame) a, ?_, fun w' here _ normal queue fresh => ?_, fun passOnly => ?_⟩
      · rw [makeRequests_entries, if_pos ⟨by rw [window]; rfl, room⟩]
        exact List.map_append
      · cases window.symm.trans here
        have normal' : a.isNormal = true := normal
        have window' : a.ownedWindow .busOut = some w := window
        have queue' : a.path.queues[mixerQueue] = { waiting := none, later := [] } := queue
        have forward : s.path.forward = a.path.forward := rfl
        rw [forward]
        exact makeRequests_busWrites (e := placedEntry frame out) normal' queue' window' rfl rfl fresh
      · rw [makeRequests_of_passOnly (s := a) _ _ passOnly]
        rfl
    · rw [if_neg room]
      have changes := raiseFault_changes .outputLate (.address (BitVec.ofNat 36 (w.first + 256 * (frame.toNat % 8)))) s
      refine ⟨by rw [changes.mixer], ?_, fun _ _ fits => absurd fits room, fun passOnly => ?_⟩
      · rw [if_neg fun ⟨_, fits⟩ => room fits, List.append_nil, changes.mixer]
      · rw [raiseFault_of_passOnly _ _ passOnly]

/-! ## The peaks of the OPEN clips (R96, R119) -/

theorem peakOffer_of_good (good : s.ClipsGood) (running : s.label.stopped = false) (bus : Fin 16) (peak : Nat) :
    peakOffer bus peak s = updateClips (Clip.onBus s.label.applied bus) (fun c => { c with peak := c.peak.map (max · peak) }) s := by
  unfold peakOffer
  rw [if_neg (by rw [running]; nofun)]
  dsimp only
  rw [readClips_of_good good]

theorem updateClips_clip (wanted : Clip → Bool) (f : Clip → Clip) (i : Fin 32) (s : State) :
    (updateClips wanted f s).label.clips[i] = (s.label.clips[i]).map fun c => if wanted c then f c else c :=
  mapTable_get ..

theorem updateClips_kept (wanted : Clip → Bool) (f : Clip → Clip) (s : State) :
    (updateClips wanted f s).label.applied = s.label.applied ∧ (updateClips wanted f s).label.stopped = s.label.stopped ∧
      (updateClips wanted f s).report = s.report ∧ (updateClips wanted f s).fault = s.fault := by
  unfold updateClips State.setLabel
  dsimp only
  exact ⟨rfl, rfl, rfl, rfl⟩

theorem peakOffer_clipsGood (good : s.ClipsGood) (bus : Fin 16) (peak : Nat) : (peakOffer bus peak s).ClipsGood := by
  rcases running : s.label.stopped with _ | _
  · rw [peakOffer_of_good good running]
    intro i c held
    rw [updateClips_clip] at held
    rcases before : s.label.clips[i] with _ | d
    · rw [before] at held
      cases held
    · rw [before] at held
      cases held
      have stands := good i d before
      dsimp only
      split <;> exact stands
  · unfold peakOffer
    rw [if_pos running]
    exact good

/-- The highest of the peaks offered to a camera's clip. -/
def peakFor (applied : LabelSettings) (peak : Fin 16 → Nat) (is : List (Fin 16)) (camera : Fin 8) : Nat :=
  match applied.buses[camera] with
  | some bus => if bus ∈ is then peak bus else 0
  | none => 0

theorem peakOffers_clip (peak : Fin 16 → Nat) (is : List (Fin 16)) (distinct : is.Nodup) (good : s.ClipsGood)
    (running : s.label.stopped = false) {i : Fin 32} {c : Clip} (held : s.label.clips[i] = some c)
    (isOpen : c.closing = none) :
    (is.foldl (fun s b => peakOffer b (peak b) s) s).label.clips[i] =
      some { c with peak := c.peak.map fun p => max p (peakFor s.label.applied peak is c.camera) } := by
  induction is generalizing s c with
  | nil =>
    have none' : peakFor s.label.applied peak [] c.camera = 0 := by
      unfold peakFor
      split
      · exact if_neg List.not_mem_nil
      · rfl
    simp [held, none']
  | cons bus is ih =>
    obtain ⟨fresh, distinct⟩ := List.nodup_cons.mp distinct
    let s' := peakOffer bus (peak bus) s
    have offered : s' = _ := peakOffer_of_good good running bus (peak bus)
    have good' : s'.ClipsGood := peakOffer_clipsGood good bus (peak bus)
    obtain ⟨applied, stopped, -, -⟩ := updateClips_kept (Clip.onBus s.label.applied bus)
      (fun c => { c with peak := c.peak.map (max · (peak bus)) }) s
    rw [← offered] at applied stopped
    have running' : s'.label.stopped = false := stopped.trans running
    have clip : s'.label.clips[i] = some (if c.onBus s.label.applied bus then
        { c with peak := c.peak.map (max · (peak bus)) } else c) := by
      rw [offered, updateClips_clip, held, Option.map_some]
    have carries : c.onBus s.label.applied bus = true ↔ s.label.applied.buses[c.camera] = some bus := by
      simp [Clip.onBus, Clip.isOpen, isOpen]
    rw [List.foldl_cons]
    by_cases own : s.label.applied.buses[c.camera] = some bus
    · rw [if_pos (carries.mpr own)] at clip
      refine (ih distinct good' running' clip isOpen).trans ?_
      rw [applied]
      unfold peakFor
      simp only [own, if_neg fresh, List.mem_cons_self, if_true, Option.map_map]
      congr 2
      refine Option.map_congr fun p _ => ?_
      exact Nat.max_eq_left (Nat.zero_le _)
    · rw [if_neg (mt carries.mp own)] at clip
      refine (ih distinct good' running' clip isOpen).trans ?_
      have same : peakFor s.label.applied peak (bus :: is) c.camera = peakFor s.label.applied peak is c.camera := by
        unfold peakFor
        rcases which : s.label.applied.buses[c.camera] with _ | other
        · rfl
        · have differs : other ≠ bus := fun e => own (by rw [which, e])
          simp [differs]
      rw [applied, same]

theorem offerPeaks_clipsGood (good : s.ClipsGood) (out : BusFrame) : (offerPeaks out s).ClipsGood := by
  unfold offerPeaks
  generalize List.finRange 16 = is
  induction is generalizing s with
  | nil => exact good
  | cons bus is ih => exact ih (peakOffer_clipsGood good bus (framePeak out[bus]))

theorem peakOffer_quiet (good : s.ClipsGood) (bus : Fin 16) (peak : Nat) :
    (peakOffer bus peak s).report = s.report ∧ (peakOffer bus peak s).fault = s.fault := by
  rcases running : s.label.stopped with _ | _
  · obtain ⟨-, -, report, fault⟩ := updateClips_kept (Clip.onBus s.label.applied bus)
      (fun c => { c with peak := c.peak.map (max · peak) }) s
    rw [peakOffer_of_good good running]
    exact ⟨report, fault⟩
  · unfold peakOffer
    rw [if_pos running]
    exact ⟨rfl, rfl⟩

theorem offerPeaks_quiet (good : s.ClipsGood) (out : BusFrame) :
    (offerPeaks out s).report = s.report ∧ (offerPeaks out s).fault = s.fault := by
  unfold offerPeaks
  generalize List.finRange 16 = is
  induction is generalizing s with
  | nil => exact ⟨rfl, rfl⟩
  | cons bus is ih =>
    obtain ⟨report, fault⟩ := peakOffer_quiet good bus (framePeak out[bus])
    obtain ⟨report', fault'⟩ := ih (peakOffer_clipsGood good bus (framePeak out[bus]))
    exact ⟨report'.trans report, fault'.trans fault⟩

theorem offerPeaks_of_stopped (stopped : s.label.stopped = true) (out : BusFrame) : offerPeaks out s = s := by
  have still (bus : Fin 16) (peak : Nat) : peakOffer bus peak s = s := by
    unfold peakOffer
    exact if_pos stopped
  unfold offerPeaks
  exact List.foldl_fixed' (fun bus => still bus _) _

theorem postSettle_of_stopped (stopped : s.label.stopped = true) : postSettle s = s := by
  have ring : ringSettle s = s := by
    unfold ringSettle
    exact if_pos stopped
  unfold postSettle uplinkSettle
  rw [ring, if_pos stopped]

end Sys2Proof.Machine
end

section
/-! SUPPORT. The mixer at an audio boundary, settled (R72, R76, R78, R80, R81, R90-R98, R119). -/

set_option Elab.async false

namespace Sys2Proof.Machine

variable {s t u : State}

theorem Line.closeNotice_eq (x : Line) : x.closeNotice = { x with
    audioDue := x.audioDue || (x.function == .active && !x.applied.buses.isEmpty && !x.stopped) } := by
  unfold Line.closeNotice
  have iff : (x.function == .active && !x.applied.buses.isEmpty && !x.stopped) = true ↔
      x.function = .active ∧ x.applied.buses ≠ [] ∧ x.stopped = false := by
    simp [and_assoc]
  by_cases due : x.function = .active ∧ x.applied.buses ≠ [] ∧ x.stopped = false
  · rw [if_pos due, iff.mpr due, Bool.or_true]
  · rw [if_neg due, Bool.eq_false_iff.mpr (mt iff.mp due), Bool.or_false]

theorem holdFrame_line (frame : Count32) (out : BusFrame) (s : State) (l : LineId) :
    (holdFrame frame out s).line l = (s.line l).closeNotice := mapTable_get ..

/-! ## No faults in PASS-ONLY mode (R203) -/

/-- In PASS-ONLY mode the fault unit stays as it was. -/
structure FaultKept (s t : State) : Prop where
  kept : s.isNormal = false → t.fault = s.fault

theorem FaultKept.of_fault (h : t.fault = s.fault) : FaultKept s t := ⟨fun _ => h⟩

theorem FaultKept.trans (h : FaultKept s t) (k : FaultKept t u) : FaultKept s u where
  kept passOnly := by
    have first := h.kept passOnly
    have still : t.isNormal = false := by
      rw [State.isNormal, first]
      exact passOnly
    exact (k.kept still).trans first

theorem dropBadClip_faultKept (i : Fin 32) (s : State) : FaultKept s (dropBadClip i s) where
  kept passOnly := by
    rw [dropBadClip_eq]
    dsimp only
    rw [if_neg (by rw [passOnly]; nofun)]

theorem markPosted_faultKept (i : Fin 32) (f : Closing → Closing) (s : State) : FaultKept s (markPosted i f s) :=
  .of_fault (markPosted_changes i f s).fault

theorem ringOnce_faultKept (s : State) : FaultKept s (ringOnce s).1 := by
  unfold ringOnce
  split
  · exact .of_fault rfl
  · split
    · exact .of_fault rfl
    · split
      · exact dropBadClip_faultKept ..
      · split
        · exact markPosted_faultKept ..
        · exact .of_fault rfl

theorem postSettle_faultKept (s : State) : FaultKept s (postSettle s) := by
  have same (s : State) : FaultKept s s := .of_fault rfl
  have ring : FaultKept s (ringSettle s) := by
    unfold ringSettle
    split
    · exact same s
    · split
      · exact same s
      · exact settle_induction (motive := FaultKept) ringOnce same ringOnce_faultKept .trans 32 s
  have once (s : State) : FaultKept s (uplinkOnce s).1 :=
    uplinkOnce_induction same .trans dropBadClip_faultKept (fun _ _ => markPosted_faultKept ..) (fun _ _ => .of_fault rfl) s
  have uplink (s : State) : FaultKept s (uplinkSettle s) := by
    unfold uplinkSettle
    split
    · exact same s
    · exact settle_induction (motive := FaultKept) uplinkOnce same once .trans 32 s
  exact ring.trans (uplink _)

theorem FaultKept.foldl {α : Type} (f : State → α → State) (h : ∀ s a, FaultKept s (f s a)) (l : List α) (s : State) :
    FaultKept s (l.foldl f s) := by
  induction l generalizing s with
  | nil => exact .of_fault rfl
  | cons a l ih => exact (h s a).trans (ih _)

theorem readClips_faultKept (wanted : Clip → Bool) (s : State) : FaultKept s (readClips wanted s) := by
  refine .foldl _ (fun s i => ?_) ..
  split
  · split
    · exact dropBadClip_faultKept ..
    · exact .of_fault rfl
  · exact .of_fault rfl

theorem updateClips_faultKept (wanted : Clip → Bool) (f : Clip → Clip) (s : State) : FaultKept s (updateClips wanted f s) := by
  obtain ⟨-, -, -, fault⟩ := updateClips_kept wanted f s
  exact .of_fault fault

theorem peakOffer_faultKept (bus : Fin 16) (peak : Nat) (s : State) : FaultKept s (peakOffer bus peak s) := by
  unfold peakOffer
  split
  · exact .of_fault rfl
  · exact (readClips_faultKept ..).trans (updateClips_faultKept ..)

theorem offerPeaks_faultKept (out : BusFrame) (s : State) : FaultKept s (offerPeaks out s) := by
  unfold offerPeaks
  generalize List.finRange 16 = is
  exact FaultKept.foldl _ (fun s bus => peakOffer_faultKept bus (framePeak out[bus]) s) is s

/-! ## The close as a whole (R80) -/

/-- The state in which the close offers its peaks. -/
def heldFrom (s : State) : State :=
  holdFrame s.mixer.frame s.mixer.current.outputs (queueOutput s.mixer.frame s.mixer.current.outputs (closing s))

theorem closing_frame (s : State) : closeFrame s =
    postSettle (offerPeaks s.mixer.current.outputs (heldFrom s)) := rfl

theorem heldFrom_label (s : State) : (heldFrom s).label = s.label := by
  have held := holdFrame_changes s.mixer.frame s.mixer.current.outputs
    (queueOutput s.mixer.frame s.mixer.current.outputs (closing s))
  have queued := queueOutput_changes s.mixer.frame s.mixer.current.outputs (closing s)
  exact held.label.trans (queued.label.trans (closing_changes s).label)

/-- The label unit takes the peaks of a closed frame, and nothing but parity faults follows (R96, R119). -/
theorem closeFrame_after (s : State) : ChangesOnly [.label, .report, .fault] (heldFrom s) (closeFrame s) := by
  rw [closing_frame]
  exact (postSettle_changes _).after (offerPeaks_changes ..)

theorem closeFrame_stopped (stopped : s.label.stopped = true) : closeFrame s = heldFrom s := by
  have still : (heldFrom s).label.stopped = true := by rw [heldFrom_label]; exact stopped
  rw [closing_frame, offerPeaks_of_stopped still, postSettle_of_stopped still]

theorem closeFrame_faultKept (s : State) : FaultKept (heldFrom s) (closeFrame s) := by
  rw [closing_frame]
  exact (offerPeaks_faultKept ..).trans (postSettle_faultKept _)

theorem closeFrame_quiet (good : s.ClipsGood) :
    (closeFrame s).report = (heldFrom s).report ∧ (closeFrame s).fault = (heldFrom s).fault := by
  have good' : (heldFrom s).ClipsGood := fun i c held => good i c (by rwa [heldFrom_label] at held)
  obtain ⟨report, fault⟩ := offerPeaks_quiet good' s.mixer.current.outputs
  obtain ⟨-, report', fault'⟩ := (postSettle_quiet _).quiet (offerPeaks_clipsGood good' s.mixer.current.outputs)
  rw [closing_frame]
  exact ⟨report'.trans report, fault'.trans fault⟩

theorem peakFor_all (applied : LabelSettings) (peak : Fin 16 → Nat) (camera : Fin 8) :
    peakFor applied peak (List.finRange 16) camera = ((applied.buses[camera]).map peak).getD 0 := by
  unfold peakFor
  rcases applied.buses[camera] with _ | bus
  · rfl
  · exact if_pos (List.mem_finRange bus)

theorem offerPeaks_clip (out : BusFrame) (good : s.ClipsGood) (running : s.label.stopped = false) {i : Fin 32} {c : Clip}
    (held : s.label.clips[i] = some c) (isOpen : c.closing = none) : (offerPeaks out s).label.clips[i] = some { c with
      peak := c.peak.map fun p => max p (((s.label.applied.buses[c.camera]).map fun bus => framePeak out[bus]).getD 0) } := by
  have offered := peakOffers_clip (fun bus => framePeak out[bus]) (List.finRange 16) (List.nodup_finRange 16) good running
    held isOpen
  rw [peakFor_all] at offered
  exact offered

theorem closeFrame_clip (good : s.ClipsGood) (running : s.label.stopped = false) {i : Fin 32} {c : Clip}
    (held : s.label.clips[i] = some c) (isOpen : c.closing = none) : (closeFrame s).label.clips[i] = some { c with
      peak := c.peak.map fun p => max p (((s.label.applied.buses[c.camera]).map fun bus =>
        framePeak s.mixer.current.outputs[bus]).getD 0) } := by
  have label := heldFrom_label s
  have good' : (heldFrom s).ClipsGood := fun i c held => good i c (by rwa [label] at held)
  have offered := offerPeaks_clip s.mixer.current.outputs good' (by rw [label]; exact running) (by rw [label]; exact held)
    isOpen
  rw [label] at offered
  rw [closing_frame]
  exact postSettle_openKept _ i _ offered isOpen

end Sys2Proof.Machine
end

section
/-! SUPPORT. The mixer at an audio boundary, settled (R72, R76, R78, R80, R81, R90-R98, R119). -/

set_option Elab.async false

namespace Sys2Proof.Machine

variable {s t u : State}

/-- The state in which the frame closed has been queued, or was late. -/
def queuedFrom (s : State) : State := queueOutput s.mixer.frame s.mixer.current.outputs (closing s)

theorem heldFrom_eq (s : State) : heldFrom s = holdFrame s.mixer.frame s.mixer.current.outputs (queuedFrom s) := rfl

theorem queuedFrom_queued (s : State) : Queued s.mixer.frame s.mixer.current.outputs (closing s) (queuedFrom s) :=
  queueOutput_queued ..

theorem closing_isNormal (s : State) : (closing s).isNormal = s.isNormal := by
  let f := s.mixer.current
  have rest : ChangesOnly [.report, .mixer] (parityFaults f s) (closing s) := by
    unfold closing
    dsimp only
    refine (judgeSources_changes ..).after ?_
    refine (underrunEvent_changes ..).after ?_
    refine (saturationEvent_changes ..).after ?_
    exact (updateMeters_changes ..).mono (by decide)
  rw [State.isNormal, rest.fault]
  change (parityFaults f s).isNormal = _
  rw [parityFaults_eq, raiseBuses_isNormal]

theorem queuedFrom_mixer (s : State) : (queuedFrom s).mixer = { s.mixer with
    meters := Vector.ofFn fun b => meterAfter s.mixer.meters[b] (framePeak s.mixer.current.outputs[b])
    sources := Vector.ofFn fun x => (s.mixer.sources[x]).judge s.mixer.current.arrivals[x]
    busQueue := (queuedFrom s).mixer.busQueue } := by
  rw [(queuedFrom_queued s).mixer, closing_mixer]

theorem holdFrame_mixer (frame : Count32) (out : BusFrame) (s : State) : (holdFrame frame out s).mixer =
    { s.mixer with held := mapTable (fun v => { frame := frame, samples := v }) out } := rfl

theorem mixerBoundary_mixer (s : State) : (mixerBoundary s).mixer = { s.mixer with
    frame := s.mixer.frame + 1
    current := s.mixer.next
    applied := s.mixer.staged.getD s.mixer.applied
    staged := none
    next := newFrame (s.mixer.staged.getD s.mixer.applied) s.mixer.targets s.mixer.next.routes
    meters := Vector.ofFn fun b => meterAfter s.mixer.meters[b] (framePeak s.mixer.current.outputs[b])
    sources := Vector.ofFn fun x => (s.mixer.sources[x]).judge s.mixer.current.arrivals[x]
    busQueue := (queuedFrom s).mixer.busQueue
    held := mapTable (fun v => { frame := s.mixer.frame, samples := v }) s.mixer.current.outputs } := by
  have advanced : (mixerBoundary s).mixer = (closeFrame s).mixer.advance := rfl
  rw [advanced, (closeFrame_after s).mixer, heldFrom_eq, holdFrame_mixer, queuedFrom_mixer]
  rfl

theorem mixerBoundary_after (s : State) : (mixerBoundary s).label = (closeFrame s).label ∧
    (mixerBoundary s).fault = (closeFrame s).fault ∧ (mixerBoundary s).report = (closeFrame s).report := ⟨rfl, rfl, rfl⟩

theorem mixerBoundary_path (s : State) : (mixerBoundary s).path = (queuedFrom s).path := by
  have same : (mixerBoundary s).path = (closeFrame s).path := rfl
  have held : (heldFrom s).path = (queuedFrom s).path := (holdFrame_changes ..).path
  rw [same, (closeFrame_after s).path, held]

theorem mixerBoundary_line (s : State) (l : LineId) : (mixerBoundary s).line l = (s.line l).closeNotice := by
  have same : (mixerBoundary s).lines = (closeFrame s).lines := rfl
  have queued := queueOutput_changes s.mixer.frame s.mixer.current.outputs (closing s)
  have before : (queuedFrom s).lines = s.lines := queued.lines.trans (closing_changes s).lines
  have held := holdFrame_line s.mixer.frame s.mixer.current.outputs (queuedFrom s) l
  rw [State.line, same, (closeFrame_after s).lines, heldFrom_eq]
  refine held.trans ?_
  rw [State.line, before]
  rfl

theorem newFrame_row (applied : List RouteRecord) (targets : Vector (BitVec 16) 256) (before : List Route) (bus : Fin 16)
    (j : Fin 48) : (newFrame applied targets before).rows[bus][j] = { value := 0, parityBad := false } := by
  simp [newFrame, MixFrame.empty, Accumulator.zero]

theorem newFrame_arrivals (applied : List RouteRecord) (targets : Vector (BitVec 16) 256) (before : List Route)
    (x : Fin 64) : (newFrame applied targets before).arrivals[x] = 0 := by
  simp [newFrame, MixFrame.empty]

/-- The bus output queue after the close, by its frames and its newest entry (R97). -/
theorem queuedFrom_entries (s : State) : (queuedFrom s).mixer.entries = s.mixer.entries ++
    if (s.ownedWindow .busOut).isSome = true ∧ s.mixer.busQueue.length < 2 then
      [placedEntry s.mixer.frame s.mixer.current.outputs] else [] := by
  have window : (closing s).ownedWindow .busOut = s.ownedWindow .busOut := by
    rw [State.ownedWindow, State.ownedWindow, (closing_changes s).path]
  have busQueue : (closing s).mixer.busQueue = s.mixer.busQueue := by rw [closing_mixer]
  have entries : (closing s).mixer.entries = s.mixer.entries := by rw [Mixer.entries, Mixer.entries, busQueue]
  rw [(queuedFrom_queued s).entries, window, busQueue, entries]

theorem Mixer.entries_frames (m : Mixer) : m.entries.map (·.frame) = m.busQueue.map (·.frame) := by
  rw [Mixer.entries, List.map_map]
  rfl

theorem queuedFrom_last {w : WindowEntry} (window : s.ownedWindow .busOut = some w) (room : s.mixer.busQueue.length < 2) :
    ∃ e, (queuedFrom s).mixer.busQueue.getLast? = some e ∧
      { e with presented := 0 } = placedEntry s.mixer.frame s.mixer.current.outputs := by
  have entries := queuedFrom_entries s
  rw [if_pos ⟨by rw [window]; rfl, room⟩] at entries
  have last : (queuedFrom s).mixer.entries.getLast? = some (placedEntry s.mixer.frame s.mixer.current.outputs) := by
    rw [entries, List.getLast?_concat]
  rw [Mixer.entries, List.getLast?_map, Option.map_eq_some_iff] at last
  exact last

theorem makeRequests_told (q : Fin 8) (ms : List Made) (s : State) :
    (makeRequests q ms s).report = s.report ∧ (makeRequests q ms s).fault.classes = s.fault.classes := by
  rw [makeRequests_eq]
  exact ⟨rfl, rfl⟩

/-- A late frame, and nothing else, is told when a frame is queued (R97). -/
theorem queueOutput_told {a : State} (view : LabelView a s) (frame : Count32) (out : BusFrame) :
    let late := match s.ownedWindow .busOut with
      | some w =>
        if s.mixer.busQueue.length < 2 then a
        else raiseFault .outputLate (.address (BitVec.ofNat 36 (w.first + 256 * (frame.toNat % 8)))) a
      | none => a
    (queueOutput frame out s).report = late.report ∧ (queueOutput frame out s).fault.classes = late.fault.classes := by
  intro late
  unfold late queueOutput
  rcases s.ownedWindow .busOut with _ | w
  · exact ⟨view.report, view.classes⟩
  · dsimp only
    split
    · have made (x : Mixer) : (makeRequests mixerQueue (busWrites frame) (s.setMixer x)).report = a.report ∧
          (makeRequests mixerQueue (busWrites frame) (s.setMixer x)).fault.classes = a.fault.classes := by
        obtain ⟨report, classes⟩ := makeRequests_told mixerQueue (busWrites frame) (s.setMixer x)
        exact ⟨report.trans view.report, classes.trans view.classes⟩
      exact made _
    · have late := view.raiseFault .outputLate (.address (BitVec.ofNat 36 (w.first + 256 * (frame.toNat % 8))))
      exact ⟨late.report, late.classes⟩

/-- What the close tells up to the queueing of the frame (R73, R92, R93, R97). -/
theorem queuedFrom_told (s : State) :
    let starved := closeEvents s.mixer.current s.mixer s
    let late := match s.ownedWindow .busOut with
      | some w =>
        if s.mixer.busQueue.length < 2 then starved
        else raiseFault .outputLate (.address (BitVec.ofNat 36 (w.first + 256 * (s.mixer.frame.toNat % 8)))) starved
      | none => starved
    (queuedFrom s).report = late.report ∧ (queuedFrom s).fault.classes = late.fault.classes := by
  have told := queueOutput_told (closing_view s) s.mixer.frame s.mixer.current.outputs
  have window : (closing s).ownedWindow .busOut = s.ownedWindow .busOut := by
    rw [State.ownedWindow, State.ownedWindow, (closing_changes s).path]
  have busQueue : (closing s).mixer.busQueue = s.mixer.busQueue := by rw [closing_mixer]
  rw [window, busQueue] at told
  exact told

end Sys2Proof.Machine
end

section
/-! SUPPORT. The mixer's audio boundary, settled. -/

set_option Elab.async false

namespace Sys2Proof.Machine

variable {s t u : State}

theorem LabelView.closeEvents (h : LabelView s t) (f : MixFrame) (m : Mixer) :
    LabelView (closeEvents f m s) (closeEvents f m t) := by
  unfold Sys2Proof.Machine.closeEvents
  have clipped := (h.raiseBuses ((List.finRange 16).filter f.badRow)).saturationEvent f
  dsimp only
  split
  · exact clipped
  · exact clipped.offer ..

theorem closeEvents_isNormal (f : MixFrame) (m : Mixer) (s : State) : (closeEvents f m s).isNormal = s.isNormal := by
  have told (object : Nat) (d : Detail) (u : State) : (offer object d u).isNormal = u.isNormal := by
    rw [State.isNormal, (offer_changes object d u).fault]
    rfl
  have clipped : (saturationEvent f (raiseBuses ((List.finRange 16).filter f.badRow) s)).isNormal = s.isNormal := by
    unfold saturationEvent
    dsimp only
    split
    · exact raiseBuses_isNormal ..
    · rw [told, raiseBuses_isNormal]
  unfold closeEvents
  dsimp only
  split
  · exact clipped
  · rw [told, clipped]

/-- What the close tells, with the sets of buses and sources by their members (R73, R92, R93). -/
theorem closeEvents_eq {f : MixFrame} {m : Mixer} {buses : BitVec 16} {sources : BitVec 64} {saturated : Fin 16 → Nat}
    (counts : ∀ bus, saturated bus = f.saturated bus)
    (inBuses : ∀ bus : Fin 16, buses.getLsbD bus.val = decide (saturated bus ≠ 0))
    (inSources : ∀ x : Fin 64, sources.getLsbD x.val = ((m.sources[x]).active &&
      (f.routes.any fun q => q.record.source == x) &&
      (List.finRange 48).any fun j => !(f.arrivals[x]).getLsbD j.val)) (s : State) :
    let parity := ((List.finRange 16).filter f.badRow).foldl (fun u bus =>
      if s.isNormal then faultedState 7 (.location 1 (BitVec.ofNat 8 bus.val)) u else u) s
    let total := ((List.finRange 16).map saturated).sum
    let clipped := if total = 0 then parity else offer 0 (.busSaturation buses total) parity
    closeEvents f m s = if sources = 0 then clipped else offer 0 (.audioUnderrun sources) clipped := by
  intro parity total clipped
  obtain rfl : saturated = f.saturated := funext counts
  have set : flagSet 16 (fun b => f.saturated b != 0) = buses := flagSet_eq fun bus => by
    rw [inBuses bus]
    rcases f.saturated bus with _ | n <;> simp
  have underrun : underrunSet m f = sources := flagSet_eq fun x => by rw [inSources x, ne_allOnes_iff]
  have first : raiseBuses ((List.finRange 16).filter f.badRow) s = parity := raiseBuses_of_mode rfl _
  unfold closeEvents saturationEvent
  rw [first, underrun, set]

/-- The frame is late, or nothing more is told (R97). -/
theorem late_eq (a : State) {n : Bool} (normal : a.isNormal = n) (x : FailAddress) :
    raiseFault .outputLate x a = if n then faultedState 5 x a else a := raiseFault_of_mode normal .outputLate x

/-- The mixer after a boundary, field by field (R80, R81, R94, R95). -/
theorem mixerBoundary_fields (s : State) :
    let x := (mixerBoundary s).mixer
    x.boundaries = s.mixer.boundaries ∧ x.frame = s.mixer.frame + 1 ∧ x.current = s.mixer.next ∧
      x.applied = s.mixer.staged.getD s.mixer.applied ∧ x.staged = none ∧ x.targets = s.mixer.targets ∧
      (∀ bus : Fin 16, x.held[bus] = { frame := s.mixer.frame, samples := s.mixer.current.outputs[bus] } ∧
        x.meters[bus] = meterAfter s.mixer.meters[bus] (framePeak s.mixer.current.outputs[bus])) ∧
      (∀ i : Fin 64, x.sources[i] = (s.mixer.sources[i]).judge s.mixer.current.arrivals[i]) ∧
      x.next = newFrame (s.mixer.staged.getD s.mixer.applied) s.mixer.targets s.mixer.next.routes ∧
      x.busQueue = (queuedFrom s).mixer.busQueue := by
  rw [mixerBoundary_mixer]
  dsimp only
  exact ⟨rfl, rfl, rfl, rfl, rfl, rfl, fun bus => ⟨mapTable_get .., by simp⟩, fun i => by simp, rfl, rfl⟩

/-- The mixer with a boundary taken stands as it did. -/
theorem setMixer_boundaries (s : State) (rest : List AudioBoundary) :
    let r := s.setMixer { s.mixer with boundaries := rest }
    r.mixer.boundaries = rest ∧ r.mixer.frame = s.mixer.frame ∧ r.mixer.current = s.mixer.current ∧
      r.mixer.next = s.mixer.next ∧ r.mixer.staged = s.mixer.staged ∧ r.mixer.applied = s.mixer.applied ∧
      r.mixer.targets = s.mixer.targets ∧ r.mixer.meters = s.mixer.meters ∧ r.mixer.sources = s.mixer.sources ∧
      r.mixer.busQueue = s.mixer.busQueue := by
  unfold State.setMixer
  dsimp only
  exact ⟨rfl, rfl, rfl, rfl, rfl, rfl, rfl, rfl, rfl, rfl⟩

/-- In PASS-ONLY mode no fault is taken at the boundary (R203). -/
theorem mixerBoundary_fault (passOnly : s.isNormal = false) : (mixerBoundary s).fault = s.fault := by
  obtain ⟨-, fault, -⟩ := mixerBoundary_after s
  have closed := closing_fault passOnly
  have queued := (queuedFrom_queued s).passOnly ((closing_isNormal s).trans passOnly)
  have held : (heldFrom s).fault = (queuedFrom s).fault := (holdFrame_changes ..).fault
  have same : (heldFrom s).fault = s.fault := held.trans (queued.trans closed)
  have still : (heldFrom s).isNormal = false := by
    rw [State.isNormal, same]
    exact passOnly
  exact fault.trans (((closeFrame_faultKept s).kept still).trans same)

/-- With no parity error in a clip record nothing is told after the frame has been queued. -/
theorem mixerBoundary_told (good : s.ClipsGood) :
    (mixerBoundary s).report = (queuedFrom s).report ∧ (mixerBoundary s).fault = (queuedFrom s).fault := by
  obtain ⟨-, fault, report⟩ := mixerBoundary_after s
  obtain ⟨report', fault'⟩ := closeFrame_quiet good
  have held := holdFrame_changes s.mixer.frame s.mixer.current.outputs (queuedFrom s)
  exact ⟨report.trans (report'.trans held.report), fault.trans (fault'.trans held.fault)⟩

/-- What is told at the boundary, from any state that looks alike (R73, R92, R93, R97). -/
theorem mixerBoundary_late {a : State} (good : s.ClipsGood)
    (view : LabelView a (closeEvents s.mixer.current s.mixer s)) :
    let late := match s.ownedWindow .busOut with
      | some w =>
        if s.mixer.busQueue.length < 2 then a
        else raiseFault .outputLate (.address (BitVec.ofNat 36 (w.first + 256 * (s.mixer.frame.toNat % 8)))) a
      | none => a
    (mixerBoundary s).report = late.report ∧ (mixerBoundary s).fault.classes = late.fault.classes := by
  obtain ⟨report, fault⟩ := mixerBoundary_told good
  have told := queueOutput_told (view.trans (closing_view s)) s.mixer.frame s.mixer.current.outputs
  have window : (closing s).ownedWindow .busOut = s.ownedWindow .busOut := by
    rw [State.ownedWindow, State.ownedWindow, (closing_changes s).path]
  have busQueue : (closing s).mixer.busQueue = s.mixer.busQueue := by rw [closing_mixer]
  rw [window, busQueue] at told
  rw [report, fault]
  exact told

/-- What is told at the boundary handed to the mixer. -/
theorem boundaryTaken_late {a : State} (rest : List AudioBoundary) (good : s.ClipsGood)
    (events : closeEvents s.mixer.current s.mixer s = a) :
    let t := mixerBoundary (s.setMixer { s.mixer with boundaries := rest })
    let late := match s.ownedWindow .busOut with
      | some w =>
        if s.mixer.busQueue.length < 2 then a
        else
          if s.isNormal then
            faultedState 5 (.address (BitVec.ofNat 36 (w.first + 256 * (s.mixer.frame.toNat % 8)))) a
          else a
      | none => a
    t.report = late.report ∧ t.fault.classes = late.fault.classes := by
  intro t late
  obtain ⟨r, made⟩ : ∃ r, r = s.setMixer { s.mixer with boundaries := rest } := ⟨_, rfl⟩
  obtain ⟨-, frame, current, -, -, -, -, -, sources, busQueue⟩ := setMixer_boundaries s rest
  have changes : ChangesOnly [.mixer] s r := by rw [made]; exact State.setMixer_changes ..
  have window : r.ownedWindow .busOut = s.ownedWindow .busOut := by rw [State.ownedWindow, State.ownedWindow, changes.path]
  have base : LabelView s r := by
    rw [made]
    exact (LabelView.refl s).setMixer _
  have good' : r.ClipsGood := fun i c held => good i c (by rwa [changes.label] at held)
  unfold t late
  rw [← made] at frame current sources busQueue ⊢
  have alike : closeEvents r.mixer.current r.mixer r = closeEvents s.mixer.current s.mixer r := by
    have same : underrunSet r.mixer s.mixer.current = underrunSet s.mixer s.mixer.current := by
      unfold underrunSet
      rw [sources]
    unfold closeEvents
    rw [current, same]
  have view : LabelView a (closeEvents r.mixer.current r.mixer r) := by
    rw [alike, ← events]
    exact base.closeEvents ..
  have told := mixerBoundary_late good' view
  have mode : a.isNormal = s.isNormal := by rw [← events, closeEvents_isNormal]
  rw [window, busQueue, frame] at told
  rcases applied : s.ownedWindow .busOut with _ | w
  · rw [applied] at told
    exact told
  · rw [applied] at told
    dsimp only at told ⊢
    rw [late_eq a mode] at told
    exact told

end Sys2Proof.Machine

open Sys2Proof Sys2Proof.Machine

/-- Settles O37: the close by its steps, and the opening of the next frame. -/
theorem mixerClosesAndOpensAtABoundary : Obligations.MixerClosesAndOpensAtABoundary := by
  intro us s₀ s b rest struck front running m bad out peak saturated total
  have outs (bus : Fin 16) : m.current.outputs[bus] = out bus := by
    have place : m.current.outputs[bus] = m.current.busOutput bus := by simp [MixFrame.outputs]
    rw [place, MixFrame.busOutput_eq]
    rfl
  have peakOf (bus : Fin 16) : framePeak (out bus) = peak bus := rfl
  have peaks : (fun bus : Fin 16 => framePeak m.current.outputs[bus]) = peak := funext fun bus => by
    rw [outs bus, peakOf bus]
  have counts (bus : Fin 16) : saturated bus = m.current.saturated bus := (MixFrame.saturated_eq m.current bus).symm
  have placed : Vector.ofFn out = m.current.outputs := by
    refine Vector.ext fun i below => ?_
    have one := outs ⟨i, below⟩
    rw [Vector.getElem_ofFn]
    exact one.symm
  refine ⟨fun e w k => BusEntry.request_eq e w k, ?_⟩
  obtain ⟨r, made⟩ : ∃ r, r = s.setMixer { s.mixer with boundaries := rest } := ⟨_, rfl⟩
  have run : exec (.mixerAudioBoundary us) s₀ = .next (mixerBoundary r) := by
    have run : exec (.mixerAudioBoundary us) s₀ = execMixerAudioBoundary us s₀ := rfl
    rw [run, execMixerAudioBoundary, ← struck, made]
    dsimp only
    rw [front]
    have still : (s.setMixer { s.mixer with boundaries := rest }).mixer.stopped = false := running
    exact if_neg (by rw [still]; nofun)
  obtain ⟨boundaries, frame, current, next, staged, applied, targets, meters, sources, busQueue⟩ := setMixer_boundaries s rest
  rw [← made] at boundaries frame current next staged applied targets meters sources busQueue
  have changes : ChangesOnly [.mixer] s r := by rw [made]; exact State.setMixer_changes ..
  have label := changes.label
  have normal : r.isNormal = s.isNormal := by rw [State.isNormal, changes.fault]; rfl
  have window : r.ownedWindow .busOut = s.ownedWindow .busOut := by rw [State.ownedWindow, State.ownedWindow, changes.path]
  obtain ⟨boundaries', frame', current', applied', staged', targets', buses', sources', next', busQueue'⟩ :=
    mixerBoundary_fields r
  rw [boundaries] at boundaries'
  rw [frame] at frame'
  rw [next] at current'
  rw [staged, applied] at applied'
  rw [targets] at targets'
  rw [staged, applied, targets, next] at next'
  rw [frame, current, meters] at buses'
  rw [sources, current] at sources'
  have queued : (mixerBoundary r).mixer.entries = (queuedFrom r).mixer.entries := by
    rw [Mixer.entries, Mixer.entries, busQueue']
  have before : r.mixer.entries = m.entries := by rw [Mixer.entries, Mixer.entries, busQueue]
  have entries := queuedFrom_entries r
  rw [window, busQueue, frame, current, before, ← queued] at entries
  have path := mixerBoundary_path r
  have entered := (queuedFrom_queued r).first
  have closedPath : (closing r).path = s.path := (closing_changes r).path.trans changes.path
  have closedWindow : (closing r).ownedWindow .busOut = s.ownedWindow .busOut := by
    rw [State.ownedWindow, State.ownedWindow, closedPath]
  have closedQueue : (closing r).mixer.busQueue = m.busQueue := by
    rw [closing_mixer]
    exact busQueue
  rw [closedPath, closedWindow, closedQueue, frame, current, closing_isNormal, normal, ← path, ← busQueue'] at entered
  refine ⟨mixerBoundary r, run, (mixerBoundary_changes r).after (changes.mono (by decide)), boundaries', frame', current', applied',
    staged', targets', fun bus => ?_, fun x => ?_, fun bus j => ?_, fun x => ?_, ?_, ?_, fun w here room => ⟨?_,
    fun normal queue fresh => ?_⟩, fun l => ?_, fun stopped => ?_, fun going good i c held isOpen => ?_, fun passOnly => ?_,
    fun good buses starving inBuses inStarving => ?_⟩
  · obtain ⟨held, meter⟩ := buses' bus
    rw [held, meter, outs bus]
    exact ⟨rfl, rfl⟩
  · rw [sources' x, Source.judge_eq]
    exact ⟨rfl, rfl, rfl, rfl, rfl⟩
  · rw [next']
    exact newFrame_row ..
  · rw [next']
    exact newFrame_arrivals ..
  · rw [next']
    rfl
  · have frames := congrArg (List.map (·.frame)) entries
    rw [Mixer.entries_frames, List.map_append, Mixer.entries_frames] at frames
    refine frames.trans (congrArg (m.busQueue.map (·.frame) ++ ·) ?_)
    split <;> rfl
  · obtain ⟨e, last, stripped⟩ := queuedFrom_last (window.trans here) (by rw [busQueue]; exact room)
    rw [frame, current] at stripped
    rw [busQueue', placed]
    exact ⟨e, last, stripped⟩
  · rw [placed]
    exact entered w here room normal queue fresh
  · have same : r.line l = s.line l := by rw [State.line, changes.lines]; rfl
    rw [mixerBoundary_line, same, Line.closeNotice_eq]
  · obtain ⟨unit, -, -⟩ := mixerBoundary_after r
    rw [unit, closeFrame_stopped (by rw [label]; exact stopped), heldFrom_label, label]
  · obtain ⟨unit, -, -⟩ := mixerBoundary_after r
    have good' : r.ClipsGood := fun i c held => good i c (by rwa [label] at held)
    have clip := closeFrame_clip good' (by rw [label]; exact going) (by rw [label]; exact held) isOpen
    rw [label, current] at clip
    rw [peaks] at clip
    rw [unit]
    exact clip
  · rw [mixerBoundary_fault (normal.trans passOnly), changes.fault]
  · intro faulted parity clipped starved late
    have events : closeEvents m.current m s = starved := closeEvents_eq counts inBuses inStarving s
    have told := boundaryTaken_late rest good events
    rw [made]
    unfold late
    rcases applied : s.ownedWindow .busOut with _ | w
    · rw [applied] at told
      exact told
    · rw [applied] at told
      exact told

end
